-- ==== Sys2Proof/Word.lean ====
section
/-! DEFINITION. The word types of the hardware: the byte that crosses every port, the 16-bit operand word of the
spec's vectors, and the 4-bit iteration count. -/

namespace Sys2Proof

/-- A byte `v[7:0]`: bit 0 is the low bit, bit 7 the high bit, and bit `i` is the coefficient of `x^i` (R8). -/
abbrev Byte := BitVec 8

/-- The operand word `IN = {a, b}`, `a` in the high places (R57). It is notation of the spec, no wire. -/
abbrev InWord := BitVec 16

/-- The iteration index `ITER`, in profile SEQ the 4-bit register `CNT` (R25, R31). -/
abbrev Count := BitVec 4

end Sys2Proof
end

