-- ==== Sys2Proof/Config.lean ====
section
/-! DEFINITION. What the hardware fixes (R6, R59), the parameter IMPL_STYLE (R7) and the two things the spec leaves
open: the propagation delay and the value of `p` before it has settled. -/

namespace Sys2Proof

/-- The parameter `IMPL_STYLE` (R7): how the eight iterations are bound to hardware. -/
inductive ImplStyle where
  /-- Profile COMB: unrolled, combinational, no storage, no clock, no reset (R30). This is the hardware. -/
  | comb
  /-- Profile SEQ: one iteration per rising clock edge (R31, R130). -/
  | seq
deriving DecidableEq, Repr

namespace Config

/-- `N_ITER`: the number of iterations of one operation (R6, R99). -/
abbrev nIter : Nat := 8

/-- `POLY`: the bit pattern of `x^8 + x^4 + x^3 + x + 1` (R6, R59). -/
abbrev poly : BitVec 9 := 0x11B

/-- `RED`: the low byte of `POLY`, the constant the reduction XORs in (R6, R59). -/
abbrev red : Byte := 0x1B

/-- `MSB`: the mask that tests the high bit of `MCAND` (R6, R59). -/
abbrev msb : Byte := 0x80

/-- The initial value of `ACC` (R59, R95). -/
abbrev accInit : Byte := 0x00

/-- The result mask of FINAL (R59, R102). -/
abbrev resultMask : Byte := 0xFF

/-- The value `IMPL_STYLE` has for this hardware (R7: "`COMB` is this hardware"). -/
abbrev implStyle : ImplStyle := .comb

/-- `T_PD`, the propagation delay of profile COMB, in a unit of time no source fixes. The spec leaves it OPEN (R7,
R173), so it has no body: nothing can be proved of its value. Log entry 12. -/
opaque tPd : Nat

/-- The free value of `p` at the `n`-th sample taken before the block has settled: the spec allows any value there
(R170, U11). No body: nothing can be proved of it. Log entry 12. -/
opaque unsettledP (n : Nat) : Byte

end Config

end Sys2Proof
end

