-- ==== Sys2Proof/Syntax.lean ====
section
/-! DEFINITION. The operations of the hardware: one constructor for the one row of the opcode table. -/

namespace Sys2Proof

/-- The operations a host can issue. There is one, and it has no opcode (R57). -/
inductive Instr where
  /-- `GFMUL a, b`: the field product of `a` (the multiplicand, first written) and `b` (the multiplier) (R62, R75).
  An operand is a natural number, the integer of an embedding that may be wider than the 8-bit ports; the operation
  takes its low byte (R58). The hardware's own operands are those up to 255: `Instr.wellFormed`. -/
  | gfmul (a b : Nat)
deriving DecidableEq, Repr

end Sys2Proof
end

