-- ==== Sys2Proof/WellFormed.lean ====
section
/-! DEFINITION. Which operations the 8-bit ports can carry as they are written. -/

namespace Sys2Proof

/-- An operand the ports can carry: "an 8-bit unsigned value, range [0, 255]" (R58). -/
def inRange (v : Nat) : Bool := decide (v ≤ 255)

/-- The host's one duty, "correctly-ranged byte inputs" (R58, R169): both operands fit their port. An operation that
is not well formed still runs, on the low bytes of its operands (R58, R152). -/
def Instr.wellFormed : Instr → Bool
  | .gfmul a b => inRange a && inRange b

end Sys2Proof
end

