-- ==== Sys2Proof/Decode.lean ====
section
/-! DEFINITION. The decoder and the encoder of format PORT (R57): the 16-bit word `IN = {a, b}`, the pair of bytes on
the ports, and the numbering of spec/opcode_table.json. -/

namespace Sys2Proof

/-- Field `a` of the operand word: bits [15:8] (R57). -/
def fieldA (w : InWord) : Byte := w.extractLsb' 8 8

/-- Field `b` of the operand word: bits [7:0] (R57). -/
def fieldB (w : InWord) : Byte := w.extractLsb' 0 8

/-- The word `IN = {a, b}` of a pair of bytes, `a` in the high places (R9, R57). -/
def inOf (a b : Byte) : InWord := a ++ b

/-- The operation a word selects. Mask and match of the one row are 0x0000, so every one of the 65,536 words is a
GFMUL and none is refused (R57, R60). -/
def decodeIn (w : InWord) : Instr := .gfmul (fieldA w).toNat (fieldB w).toNat

/-- Why a list of bytes is no presentation of one operand pair. A word is never invalid (R60); only a list that is
not two bytes long is turned away. -/
inductive DecodeError where
  /-- Fewer than two bytes: an operand is missing (R57: two operand fields). -/
  | missingOperand
  /-- More than two bytes: there is one format of one fixed size (R61). -/
  | extraBytes
deriving DecidableEq, Repr

/-- Decode a list of bytes, the byte of port `a` first (the first operand written is `a`, R62). Log entry 11. -/
def decode : List Byte → Except DecodeError Instr
  | [a, b] => .ok (decodeIn (inOf a b))
  | [] => .error .missingOperand
  | [_] => .error .missingOperand
  | _ :: _ :: _ :: _ => .error .extraBytes

/-- The word of an operation: `a` in [15:8], `b` in [7:0] (R57), of each operand its low byte (R58). -/
def encode : Instr → InWord
  | .gfmul a b => inOf (BitVec.ofNat 8 a) (BitVec.ofNat 8 b)

/-- The bytes of an operation in the order `decode` reads them. -/
def encodeBytes (i : Instr) : List Byte := [fieldA (encode i), fieldB (encode i)]

/-- The operand word of a number given as spec/opcode_table.json numbers its bits: `a` in 15:8 and `b` in 7:0, every
bit from `nbits` up being 0. -/
def tableWord (nbits w : Nat) : InWord := BitVec.ofNat 16 (w % 2 ^ nbits)

/-- The decoder on a word of spec/opcode_table.json. The row has 16 bits; a number that does not fit in `nbits` bits,
or more than 16 bits, is no word of the table. -/
def decodeTableWord (nbits w : Nat) : Option Instr :=
  if nbits ≤ 16 ∧ w < 2 ^ nbits then some (decodeIn (tableWord nbits w)) else none

end Sys2Proof
end

