-- ==== Sys2Proof/Machine/State.lean ====
section
/-! DEFINITION. The state of the block as plain data: the working state of one operation (R20), the control registers
of profile SEQ (R31), the input ports the host drives (R55, R131) and the parameter IMPL_STYLE (R7); the reasons a
step can stop; the state after reset. -/

namespace Sys2Proof.Machine

/-- The working state of one operation, "ephemeral, scoped to one call" (R20). The four registers are four distinct
values, none an alias of another (R33). -/
structure Work where
  /-- `ACC`, the accumulator: the partial, then final product (R21). -/
  acc : Byte
  /-- `MCAND`, the multiplicand register (R22). -/
  mcand : Byte
  /-- `MPLIER`, the multiplier register (R23). -/
  mplier : Byte
  /-- `OVF`, the overflow flag: what step 2 of the last iteration captured (R24). Log entry 10. -/
  ovf : Bool
  /-- `ITER`, the position in the sequence of iterations, 0 to 8 (R25); in profile SEQ the 4-bit register `CNT`
  (R31). -/
  iter : Count
deriving DecidableEq, Repr

/-- The state of one block. There is no memory (R40), no program counter (R26), no control or status register (R27)
and no other register file (R28). -/
structure State where
  /-- The parameter `IMPL_STYLE` (R7). No step changes it. Log entry 5. -/
  style : ImplStyle
  /-- Input port `a[7:0]` (R55, R131). -/
  a : Byte
  /-- Input port `b[7:0]` (R55, R131). -/
  b : Byte
  /-- Input port `rst` of profile SEQ (R131). -/
  rst : Bool
  /-- Input port `start` of profile SEQ (R131). -/
  start : Bool
  /-- The working state (R20, R31). -/
  work : Work
  /-- `RUN` of profile SEQ: 1 while an operation is in progress (R31). -/
  run : Bool
  /-- `VALID` of profile SEQ: 1 when `ACC` holds the product of the last accepted operation (R31). -/
  valid : Bool
  /-- The model's own bit: a reset edge of profile SEQ has occurred, the premise R167 asks for. Log entry 7. -/
  resetSeen : Bool
deriving DecidableEq, Repr

/-- The faults of the block: none. "The hardware raises no exception, for any operand pair, in any state"; "A model's
step function for this hardware has no fault outcome" (R150). Log entry 14. -/
inductive Fault where
deriving DecidableEq, Repr

/-- Why a step gives no next state. -/
inductive Refusal where
  /-- An operation that has no meaning in the model yet. Raised only by an arm of `exec`; no arm raises it. Safe. -/
  | notModelled (mnemonic : String)
  /-- Raised by an edge of profile SEQ without reset, before the first reset edge: the registers hold unknown values
  and the spec gives the profile no behaviour (R133, R167, U8: refuse). Safe: the model stops. Log entry 7. -/
  | seqBeforeReset
  /-- Raised by an edge of profile SEQ without reset in a state no run from a reset edge reaches: `CNT` in 9..15, or
  `RUN = 1` with `VALID = 1` (U9: refuse). Safe: the model stops. Log entry 8. -/
  | seqUnreachable
deriving DecidableEq, Repr

namespace Work

/-- Write `ACC`. -/
def setAcc (w : Work) (v : Byte) : Work := { w with acc := v }
/-- Write `MCAND`. -/
def setMcand (w : Work) (v : Byte) : Work := { w with mcand := v }
/-- Write `MPLIER`. -/
def setMplier (w : Work) (v : Byte) : Work := { w with mplier := v }
/-- Write `OVF`. -/
def setOvf (w : Work) (c : Bool) : Work := { w with ovf := c }
/-- Write `ITER`. -/
def setIter (w : Work) (n : Count) : Work := { w with iter := n }

end Work

namespace State

/-- Drive the operand ports. -/
def setPorts (s : State) (a b : Byte) : State := { s with a := a, b := b }
/-- Drive the control inputs of profile SEQ. -/
def setInputs (s : State) (rst start : Bool) : State := { s with rst := rst, start := start }
/-- Write the working state. -/
def setWork (s : State) (w : Work) : State := { s with work := w }
/-- Write `RUN` and `VALID`. -/
def setControl (s : State) (run valid : Bool) : State := { s with run := run, valid := valid }
/-- Record that a reset edge has occurred. -/
def setResetSeen (s : State) (seen : Bool) : State := { s with resetSeen := seen }

/-- The block before any operation. The hardware is profile COMB, which has no reset and no state a reset could set
(R165); what stands in for reset is INIT (R166), here for the operands on the ports, which the model takes to be
driven to 0x00 (log entry 1): ACC 0x00, MCAND `a`, MPLIER `b`, ITER 0 (log entry 2). OVF is unspecified and
unobservable (R24; log entry 3). What only profile SEQ has stands at 0 (log entries 4 and 7). -/
def reset : State where
  style := Config.implStyle
  a := 0x00
  b := 0x00
  rst := false
  start := false
  work := { acc := Config.accInit, mcand := 0x00, mplier := 0x00, ovf := false, iter := 0 }
  run := false
  valid := false
  resetSeen := false

end State

end Sys2Proof.Machine
end

