-- ==== Sys2Proof/Machine/Operands.lean ====
section
/-! DEFINITION. Operand assembly (R58): the truncation to a byte, the presentation of a pair on the ports, and the
operand word the ports carry. -/

namespace Sys2Proof.Machine

/-- `trunc8(v)`: the low 8 bits, `v mod 256` (R9). Nothing is validated and nothing is reported (R58, R152). -/
def trunc8 (v : Nat) : Byte := BitVec.ofNat 8 v

/-- The host presents a pair of operands (R56). The ports are 8 bits wide, so a wider value drives its low byte
(R58). In an operation `a` and `b` belong to one presentation (R44). -/
def present (a b : Nat) (s : State) : State := s.setPorts (trunc8 a) (trunc8 b)

/-- The operand word `IN = {a, b}` on the ports (R57). -/
def portWord (s : State) : InWord := inOf s.a s.b

/-- The host drives the operand word `w` as its next presentation. In profile COMB that is the two operand ports and
nothing else (R56). In profile SEQ the host also requests the operation, `rst` 0 and `start` 1 (R131); a busy block
turns the request away (R139). Log entry 13. -/
def placeWord (w : InWord) (s : State) : State :=
  match s.style with
  | .comb => s.setPorts (fieldA w) (fieldB w)
  | .seq => (s.setPorts (fieldA w) (fieldB w)).setInputs false true

end Sys2Proof.Machine
end

