-- ==== Sys2Proof/Machine/Flags.lean ====
section
/-! DEFINITION. The one flag of the hardware, OVF (R24): its computation and step 2 of an iteration, its only writer. -/

namespace Sys2Proof.Machine

/-- The value OVF captures from `MCAND`: its bit 7 (R116). -/
def overflow (v : Byte) : Bool := v.getLsbD 7

/-- Step 2, CAPTURE OVF: `OVF <- MCAND[7]`, before the shift (R116). No other step writes OVF (R24). -/
def captureOvf (w : Work) : Work := w.setOvf (overflow w.mcand)

end Sys2Proof.Machine
end

