-- ==== Sys2Proof/Machine/Ops.lean ====
section
/-! DEFINITION. The steps GFMUL is made of, on the working state of one operation: INIT, the steps of an iteration,
the iteration in its sequential and its parallel form, the sequence of iterations, FINAL. Taking an exception and
returning from one do not exist in this hardware (R150, R155, R156), so no operation for them stands here. -/

namespace Sys2Proof.Machine

/-- INIT (R95): `ACC <- 0x00`, `MCAND <- a`, `MPLIER <- b`, `ITER <- 0`; OVF is not initialised (R24). The bytes are
those on the ports, where `trunc8` has been applied (`present`). -/
def initWork (a b : Byte) (w : Work) : Work :=
  (((w.setAcc Config.accInit).setMcand a).setMplier b).setIter 0

/-- Step 1, ACCUMULATE (R96): `if MPLIER[0] = 1: ACC <- ACC ^ MCAND`. -/
def accumulate (w : Work) : Work :=
  if w.mplier.getLsbD 0 then w.setAcc (w.acc ^^^ w.mcand) else w

/-- Step 3, SHIFT MCAND LEFT (R117): `MCAND <- trunc8(MCAND << 1)`; the ninth bit is dropped. -/
def shiftMcand (w : Work) : Work := w.setMcand (w.mcand <<< 1)

/-- Step 4, REDUCE (R118): `if OVF = 1: MCAND <- MCAND ^ 0x1B`. -/
def reduceMcand (w : Work) : Work :=
  if w.ovf then w.setMcand (w.mcand ^^^ Config.red) else w

/-- Step 5, SHIFT MPLIER RIGHT (R98): a logical shift, a 0 enters at bit 7. -/
def shiftMplier (w : Work) : Work := w.setMplier (w.mplier >>> 1)

/-- `ITER <- ITER + 1`, after step 5 (R99). -/
def advanceIter (w : Work) : Work := w.setIter (w.iter + 1)

/-- ITERSTEP (R100): one iteration, the steps in the order the source lists them. -/
def iterStep (w : Work) : Work :=
  advanceIter (shiftMplier (reduceMcand (shiftMcand (captureOvf (accumulate w)))))

/-- XTIME (R119): what steps 2 to 4 make of the value `v` of `MCAND`. -/
def xtime (v : Byte) : Byte :=
  (v <<< 1) ^^^ (if overflow v then Config.red else 0x00)

/-- ITERSTEP as one parallel register transfer (R101): every right-hand side reads the values held before. -/
def iterStepParallel (w : Work) : Work where
  acc := w.acc ^^^ (if w.mplier.getLsbD 0 then w.mcand else 0x00)
  mcand := (w.mcand <<< 1) ^^^ (if w.mcand.getLsbD 7 then Config.red else 0x00)
  mplier := w.mplier >>> 1
  ovf := w.mcand.getLsbD 7
  iter := w.iter + 1

/-- `n` iterations, one after another (R76, R99). -/
def iterations : Nat → Work → Work
  | 0, w => w
  | n + 1, w => iterations n (iterStep w)

/-- FINAL (R102): the result is `trunc8(ACC)`. The mask is the identity on an 8-bit accumulator (R103). -/
def finalP (w : Work) : Byte := w.acc &&& Config.resultMask

/-- INIT, then exactly eight iterations (R76), whatever the operands (R88). -/
def operate (a b : Byte) (w : Work) : Work := iterations Config.nIter (initWork a b w)

end Sys2Proof.Machine
end

