-- ==== Sys2Proof/Machine/Comb.lean ====
section
/-! DEFINITION. Profile COMB, this hardware (R30): the nets of the eight stages as functions of the input ports
(R104), the output wire, and the operation a presented pair carries out on the working state. -/

namespace Sys2Proof.Machine

/-- The net `MCAND_i` (R104). -/
def mcandNet (a : Byte) : Nat → Byte
  | 0 => a
  | i + 1 => (mcandNet a i <<< 1) ^^^ (if (mcandNet a i).getLsbD 7 then Config.red else 0x00)

/-- The net `OVF_i` (R104). -/
def ovfNet (a : Byte) (i : Nat) : Bool := (mcandNet a i).getLsbD 7

/-- The net `MPLIER_i` (R104). -/
def mplierNet (b : Byte) : Nat → Byte
  | 0 => b
  | i + 1 => mplierNet b i >>> 1

/-- The net `ACC_i` (R104). -/
def accNet (a b : Byte) : Nat → Byte
  | 0 => Config.accInit
  | i + 1 => accNet a b i ^^^ (if (mplierNet b i).getLsbD 0 then mcandNet a i else 0x00)

/-- The output wire of profile COMB: `p = ACC_8` (R104), a function of the present inputs and of nothing else (R56). -/
def combOutput (a b : Byte) : Byte := accNet a b 8

/-- One operation of profile COMB on the pair that is on the ports: the working state starts from INIT and ends after
the eighth iteration (R76, R166). Nothing else of the block exists, so nothing else is written (R30). -/
def combOperation (s : State) : State := s.setWork (operate s.a s.b s.work)

end Sys2Proof.Machine
end

