-- ==== Sys2Proof/Machine/Seq.lean ====
section
/-! DEFINITION. Profile SEQ (R130): what one rising edge of `clk` does with the inputs on the ports and the registers
just before the edge (R132). -/

namespace Sys2Proof.Machine

/-- Reset edge (R133): every register of the profile to its reset value; an operation in progress is lost. OVF is a
net and no register (R31), so what it last captured is not written. -/
def resetEdge (s : State) : State :=
  ((s.setWork ((((s.work.setAcc 0x00).setMcand 0x00).setMplier 0x00).setIter 0)).setControl false false).setResetSeen
    true

/-- Accepting edge (R134): INIT with the operands on the ports, `RUN <- 1`, `VALID <- 0`. -/
def acceptEdge (s : State) : State := (s.setWork (initWork s.a s.b s.work)).setControl true false

/-- Iterating edge (R135): one iteration in the parallel form; at the edge that performs iteration 7 also
`RUN <- 0`, `VALID <- 1` (R136). The inputs `start`, `a`, `b` are not looked at (R139, R140). -/
def iterateEdge (s : State) : State :=
  if s.work.iter = 7 then (s.setWork (iterStepParallel s.work)).setControl false true
  else s.setWork (iterStepParallel s.work)

/-- The states U9 says to refuse: `CNT` in 9..15, or `RUN = 1` with `VALID = 1`. Log entry 8. -/
def seqUnreachable (s : State) : Bool := decide (8 < s.work.iter.toNat) || (s.run && s.valid)

/-- One rising edge: reset, accept, iterate, hold, tested in this order (R132). Without a reset edge before it the
profile has no meaning (R167), and neither has a state no run reaches (U9). A holding edge changes no register
(R142). -/
def seqEdge (s : State) : Host.Outcome State Fault Refusal :=
  if s.rst then .next (resetEdge s)
  else if !s.resetSeen then .refused .seqBeforeReset
  else if seqUnreachable s then .refused .seqUnreachable
  else if !s.run && s.start then .next (acceptEdge s)
  else if s.run then .next (iterateEdge s)
  else .next s

end Sys2Proof.Machine
end

