-- ==== Sys2Proof/Machine/Gfmul.lean ====
section
/-! DEFINITION. The meaning of the one operation, GFMUL (R75). -/

namespace Sys2Proof.Machine

/-- GFMUL (R75): the host presents `a` and `b`. In profile COMB the block carries out the whole operation, and `p` is
the product (R56, R76). In profile SEQ a presentation meets one rising edge: it begins an operation when the edge is
an accepting one, and the pair is not looked at otherwise (R132, R134, R139, R140). Log entry 6. -/
def execGfmul (a b : Nat) (s : State) : Host.Outcome State Fault Refusal :=
  match s.style with
  | .comb => .next (combOperation (present a b s))
  | .seq => seqEdge (present a b s)

end Sys2Proof.Machine
end

