-- ==== Sys2Proof/Machine/Step.lean ====
section
/-! DEFINITION. One step of the block, and the placing of an operand word where the next step reads it. -/

namespace Sys2Proof.Machine

/-- One step. There is no program and no program counter (R26): the step runs the operation of the pair that is on
the ports, "every presentation of a pair of operands is a GFMUL" (R57). In profile SEQ a step is one rising edge of
`clk` (R132). -/
def step (s : State) : Host.Outcome State Fault Refusal := exec (decodeIn (portWord s)) s

/-- `s` with the operand word that the low `nbits` bits of `w` make on the ports, where `step` reads it. Log entry
13. -/
def State.withFetchWord (s : State) (nbits w : Nat) : State := placeWord (tableWord nbits w) s

end Sys2Proof.Machine
end

