-- ==== Sys2Proof/Machine/Ports.lean ====
section
/-! DEFINITION. The output ports (R55, R131), which are wires: each is computed from the state. -/

namespace Sys2Proof.Machine

/-- Output port `p[7:0]`. COMB: the wire from `ACC_8` of the pair on the ports now (R30, R56). SEQ: the register ACC,
the product when `done = 1` and a partial product while `busy = 1` (R137). -/
def portP (s : State) : Byte :=
  match s.style with
  | .comb => combOutput s.a s.b
  | .seq => s.work.acc

/-- Output port `busy` of profile SEQ, the register RUN (R137). Profile COMB has no such port (R55). -/
def portBusy (s : State) : Option Bool :=
  match s.style with
  | .comb => none
  | .seq => some s.run

/-- Output port `done` of profile SEQ, the register VALID (R137). Profile COMB has no such port (R55). -/
def portDone (s : State) : Option Bool :=
  match s.style with
  | .comb => none
  | .seq => some s.valid

end Sys2Proof.Machine
end

