-- ==== Sys2Proof/Machine/Environment.lean ====
section
/-! DEFINITION. The host's side of the ports: clock edges of profile SEQ with the inputs sampled at each (R131, R132),
and a bench with time for profile COMB, in which `p` settles after T_PD (R56, R170). -/

namespace Sys2Proof.Machine

/-- The inputs of profile SEQ as one rising edge samples them (R131). -/
structure SeqInputs where
  /-- `rst`, synchronous, active high. -/
  rst : Bool
  /-- `start`. -/
  start : Bool
  /-- `a[7:0]`. -/
  a : Byte
  /-- `b[7:0]`. -/
  b : Byte
deriving DecidableEq, Repr

/-- The host drives the inputs of profile SEQ. -/
def driveSeq (i : SeqInputs) (s : State) : State := (s.setPorts i.a i.b).setInputs i.rst i.start

/-- One rising edge that samples the inputs `i` (R132). -/
def edge (i : SeqInputs) (s : State) : Host.Outcome State Fault Refusal := step (driveSeq i s)

/-- Rising edges one after another, each with the inputs it samples. -/
def edges : List SeqInputs → State → Host.Outcome State Fault Refusal
  | [], s => .next s
  | i :: is, s =>
    match edge i s with
    | .next t => edges is t
    | .fault f => .fault f
    | .refused r => .refused r

/-- A block of profile COMB on a bench with time: how long the pair on its ports has been stable, in the unit of
`Config.tPd`, and how many samples of an unsettled `p` have been taken (the place of the next free value). It is the
model's own, beside the block's state. Log entry 12. -/
structure Bench where
  /-- The block. -/
  block : State
  /-- How long the operands on the ports have been stable. -/
  stableFor : Nat
  /-- How many samples were taken before `p` had settled. -/
  samples : Nat
deriving DecidableEq, Repr

/-- The host presents a pair (R56). Presenting the pair that is there already changes nothing (R44). -/
def benchPresent (a b : Nat) (t : Bench) : Bench :=
  if trunc8 a = t.block.a ∧ trunc8 b = t.block.b then t
  else { t with block := present a b t.block, stableFor := 0 }

/-- Time passes with the operands held (R170). -/
def benchWait (n : Nat) (t : Bench) : Bench := { t with stableFor := t.stableFor + n }

/-- The host samples `p`: the product of the pair on the ports when it has been stable for T_PD, and any value before
that (R170, U11). -/
def benchSample (t : Bench) : Byte × Bench :=
  if Config.tPd ≤ t.stableFor then (portP t.block, t)
  else (Config.unsettledP t.samples, { t with samples := t.samples + 1 })

end Sys2Proof.Machine
end

