-- ==== Sys2Proof/Machine/Instances.lean ====
section
/-! DEFINITION. A system of N_INST blocks (R7, R158): the blocks share no net and no register, have no identifiers of
their own and exchange no signal, so what one does is written to its own place and nowhere else. N_INST is the length
of the vector, OPEN. Log entry 9. What a system does when an edge of one block is refused is the model's choice: log
entry 18. -/

namespace Sys2Proof.Machine

/-- The blocks of a system. -/
abbrev Blocks (n : Nat) := Vector State n

/-- Put what block `k` answers back in its place. Where block `k` is refused (profile SEQ, U8, U9) the spec refuses that
block's edge and says nothing of the system; DESIGN CHOICE: the outcome of the whole system is that refusal. Log entry
18. -/
def putBack {n : Nat} (v : Blocks n) (k : Fin n) (o : Host.Outcome State Fault Refusal) :
    Host.Outcome (Blocks n) Fault Refusal :=
  match o with
  | .next t => .next (v.set k t)
  | .fault f => .fault f
  | .refused r => .refused r

/-- A caller issues an operation to block `k` (R158). -/
def execAt {n : Nat} (k : Fin n) (i : Instr) (v : Blocks n) : Host.Outcome (Blocks n) Fault Refusal :=
  putBack v k (exec i v[k])

/-- Block `k` makes a step. -/
def stepAt {n : Nat} (k : Fin n) (v : Blocks n) : Host.Outcome (Blocks n) Fault Refusal :=
  putBack v k (step v[k])

/-- One activity of a system after another. DESIGN CHOICE: where the first has no next state (one block's edge is
refused), the outcome is that refusal and the second, of another block too, does not follow. Log entry 18. -/
def andThen {α : Type} (o : Host.Outcome α Fault Refusal) (f : α → Host.Outcome α Fault Refusal) :
    Host.Outcome α Fault Refusal :=
  match o with
  | .next t => f t
  | .fault e => .fault e
  | .refused r => .refused r

end Sys2Proof.Machine
end

