-- ==== Sys2Proof/Machine/Reference.lean ====
section
/-! DEFINITION. The reference multiplication REF of R77, the "polynomial-reduction implementation": a carry-less
product of 15 bits, then the reduction modulo 0x11B, highest degree first. The machine does not call it; statements
compare the machine with it. -/

namespace Sys2Proof.Machine

/-- Add `a * x^j` to `t` when bit `j` of `b` is 1 (R77, the first loop). -/
def refAdd (a b : Byte) (t : BitVec 15) (j : Nat) : BitVec 15 :=
  if b.getLsbD j then t ^^^ (a.setWidth 15 <<< j) else t

/-- Subtract `x^(d-8) * m(x)` from `t` when its bit `d` is 1 (R77, the second loop). -/
def refSub (t : BitVec 15) (d : Nat) : BitVec 15 :=
  if t.getLsbD d then t ^^^ (Config.poly.setWidth 15 <<< (d - 8)) else t

/-- The carry-less product, of degree at most 14 (R77). -/
def refCarryless (a b : Byte) : BitVec 15 := [0, 1, 2, 3, 4, 5, 6, 7].foldl (refAdd a b) 0

/-- REF (R77): the byte of the product modulo `m(x)`. -/
def refMul (a b : Byte) : Byte :=
  ([14, 13, 12, 11, 10, 9, 8].foldl refSub (refCarryless a b)).setWidth 8

end Sys2Proof.Machine
end

