-- ==== Sys2Proof/Safety.lean ====
section
/-! DEFINITION. The words the statements use: an operation that completes, the states of profile SEQ an edge has a
meaning in, the invariant every step keeps, and the polynomials of R77. -/

namespace Sys2Proof.Safety

open Sys2Proof.Machine Polynomial

/-- The operation completes with the result `v` in profile COMB: it answers a next state in which `p` shows `v`, the
accumulator holds `v`, and all eight iterations are done (R102, 00_scope.md section 7 item 9). -/
def Delivers (i : Instr) (s : State) (v : Byte) : Prop :=
  ∃ t, exec i s = .next t ∧ t.style = .comb ∧ portP t = v ∧ t.work.acc = v ∧ t.work.iter = 8

/-- A state of profile SEQ that an edge has a meaning in: a reset edge has occurred (R167) and the state is none of
those U9 says to refuse. -/
def SeqReady (s : State) : Prop := s.style = .seq ∧ s.resetSeen = true ∧ seqUnreachable s = false

/-- The working registers hold the nets of one operation at the position ITER (R104), ITER being at most 8 (R25). -/
def OnTrace (w : Work) : Prop :=
  w.iter.toNat ≤ 8 ∧ ∃ a b : Byte,
    w.acc = accNet a b w.iter.toNat ∧ w.mcand = mcandNet a w.iter.toNat ∧ w.mplier = mplierNet b w.iter.toNat

/-- The control registers of profile SEQ agree with CNT (R133 to R136): busy with an iteration still to do, done
after the eighth, or idle since reset. -/
def ControlAgrees (s : State) : Prop :=
  (s.run = true ∧ s.valid = false ∧ s.work.iter.toNat ≤ 7) ∨
  (s.run = false ∧ s.valid = true ∧ s.work.iter.toNat = 8) ∨
  (s.run = false ∧ s.valid = false ∧ s.work.iter.toNat = 0)

/-- The invariant of the block. Profile COMB: the registers hold nets of one operation, and RUN and VALID, which do
not exist there, stay at the 0 that the model gives them (DESIGN CHOICE, log entry 4, unsafe in form; no step of profile
COMB reads them). Profile SEQ after a reset edge: the registers hold nets of one operation, and the control registers
agree with CNT. Before a reset edge profile SEQ has no meaning (R167), and nothing is asked. -/
def BlockInv (s : State) : Prop :=
  match s.style with
  | .comb => OnTrace s.work ∧ s.run = false ∧ s.valid = false
  | .seq => s.resetSeen = true → OnTrace s.work ∧ ControlAgrees s

/-- The `n`-th power of `x` by repeated GFMUL in profile COMB, as the host of program P4 computes it (R84 (e)). -/
def gfPow (x : Byte) : Nat → Byte
  | 0 => 0x01
  | n + 1 => combOutput (gfPow x n) x

/-- `poly(v)`: the polynomial over GF(2) a byte stands for, bit `i` the coefficient of `x^i` (R8). -/
noncomputable def poly (v : Byte) : Polynomial (ZMod 2) :=
  ∑ i : Fin 8, if v.getLsbD i then X ^ (i : ℕ) else 0

/-- The reduction polynomial `m(x) = x^8 + x^4 + x^3 + x + 1` (R77). -/
noncomputable def mPoly : Polynomial (ZMod 2) := X ^ 8 + X ^ 4 + X ^ 3 + X + 1

end Sys2Proof.Safety
end

