-- ==== Sys2Proof/Certificates/Slice0/Obligations.lean ====
section
/-! DEFINITION. The statements about the block, for the provers. `Delivers i s v` says that the operation completes
with the result `v`; `SeqReady s` and `BlockInv s` are in Safety.lean. Where the spec marks a rule as its own inference
("[derived: ...]"), the docstring says so. -/

open Sys2Proof Sys2Proof.Machine Sys2Proof.Safety Polynomial

/- ## Encoding -/

/-- Decoding the word or the bytes of a well-formed operation gives the operation back: no operand bit is dropped
(30_encoding.md section 2; the byte order of `decode` is the model's choice, log entry 11). -/
def Obligations.DecodeInvertsEncode : Prop :=
  ∀ i : Instr, i.wellFormed = true → decodeIn (encode i) = i ∧ decode (encodeBytes i) = .ok i

/-- R60: every word is a GFMUL with a defined result, none is illegal, reserved or a hint. -/
def Obligations.EveryOperandWordIsGfmul : Prop :=
  ∀ w : InWord, ∃ a b : Byte,
    decodeIn w = .gfmul a.toNat b.toNat ∧ encode (decodeIn w) = w ∧ (decodeIn w).wellFormed = true ∧
    decodeTableWord 16 w.toNat = some (decodeIn w) ∧
    ∀ s : State, s.style = .comb → Delivers (decodeIn w) s (refMul a b)

/-- There is one operation; `a` is bits [15:8] and `b` bits [7:0] of `IN`; every presentation of a pair is a GFMUL,
and its result is what port `p` shows (30_encoding.md section 2). That a step is one presentation, in either profile,
and that the pair on the ports is what runs, is the model's choice (log entries 6 and 13). -/
def Obligations.OnlyOperationIsGfmulOnPortPair : Prop :=
  (∀ i : Instr, ∃ a b : Nat, i = .gfmul a b) ∧
  (∀ (w : InWord) (k : Nat), k < 8 →
    (fieldA w).getLsbD k = w.getLsbD (k + 8) ∧ (fieldB w).getLsbD k = w.getLsbD k) ∧
  (∀ a b : Byte, (inOf a b).toNat = 256 * a.toNat + b.toNat ∧ decodeIn (inOf a b) = .gfmul a.toNat b.toNat) ∧
  (∀ s : State, step s = exec (.gfmul s.a.toNat s.b.toNat) s) ∧
  (∀ s : State, s.style = .comb → Delivers (decodeIn (portWord s)) s (portP s))

/-- Words written out by hand from the format of 30_encoding.md section 2 decode to the vectors of
95_test_vectors.md. The last clause, on a list of bytes, rests on the order `a` first, then `b`, which is the model's
choice (log entry 11): the hardware has no byte order. -/
def Obligations.WrittenWordsDecode : Prop :=
  decodeIn 0b0101011110000011 = .gfmul 0x57 0x83 ∧ decodeIn 0b0000001010000111 = .gfmul 0x02 0x87 ∧
  decodeIn 0b0000001100000001 = .gfmul 0x03 0x01 ∧ decodeIn 0b1111111100000000 = .gfmul 0xFF 0x00 ∧
  decode [0x57, 0x83] = .ok (.gfmul 0x57 0x83)

/- ## The step -/

/-- A step runs the operation decoded from the ports, and `withFetchWord` places a table word so that the very next
step runs the operation the decoder reads from it; in profile SEQ with the request `start = 1`, `rst = 0` beside it
(30_encoding.md section 2, 10_state.md section 4). That a step is one presentation, and how a word is placed, is
the model's choice (log entries 6 and 13). -/
def Obligations.StepRunsDecodedOperation : Prop :=
  (∀ s : State, step s = exec (decodeIn (portWord s)) s) ∧
  ∀ (s : State) (nbits w : Nat) (i : Instr), decodeTableWord nbits w = some i →
    (s.style = .comb → step (s.withFetchWord nbits w) = exec i s) ∧
    (s.style = .seq → step (s.withFetchWord nbits w) = exec i (s.setInputs false true))

/-- A step never changes the ports the host drives nor the parameter IMPL_STYLE, and in profile COMB nothing that
only profile SEQ has (10_state.md sections 5 and 7, 45_seq_profile.md section 1). That State holds RUN, VALID and the
model's own bit `resetSeen` in profile COMB too, where they do not exist, is the model's choice (log entries 4
and 7). -/
def Obligations.StepLeavesInputsAndStyle : Prop :=
  ∀ s t : State, step s = .next t →
    t.style = s.style ∧ t.a = s.a ∧ t.b = s.b ∧ t.rst = s.rst ∧ t.start = s.start ∧
    (s.style = .comb → t.run = s.run ∧ t.valid = s.valid ∧ t.resetSeen = s.resetSeen)

/- ## GFMUL in profile COMB -/

/-- R78: the eight iterations compute REF, the polynomial reduction written out in R77, for every pair, from every
state. -/
def Obligations.GfmulDeliversReferenceProduct : Prop :=
  ∀ (a b : Nat) (s : State), s.style = .comb → Delivers (.gfmul a b) s (refMul (trunc8 a) (trunc8 b))

/-- R77: the result is the byte of the product of the operands' polynomials modulo `m(x)`, and so is REF. -/
def Obligations.GfmulIsProductModuloPolynomial : Prop :=
  (∀ a b : Byte, poly (refMul a b) = (poly a * poly b) %ₘ mPoly) ∧
  ∀ (a b : Nat) (s : State), s.style = .comb →
    ∃ v : Byte, Delivers (.gfmul a b) s v ∧ poly v = (poly (trunc8 a) * poly (trunc8 b)) %ₘ mPoly

/-- What GFMUL leaves unchanged (10_state.md sections 1 and 7, 45_seq_profile.md section 2). Profile COMB: it completes,
the presented pair is on the ports, and all but the working state is as before. Profile SEQ: where the edge has a next
state, the ports carry the pair, RUN and VALID may change, and the other inputs and the parameter are as before.

In both profiles `work` is left free here, and so are RUN and VALID in profile SEQ: `OperationStartsFromInit` says what
`work` becomes in profile COMB, and `SeqResetEdge` to `SeqHoldingEdge` what the three become at each edge.

The model's choices: that exec of a presentation in profile SEQ is one edge (log entry 6); the bit `resetSeen` and the
clause that it becomes `rst` or what it was (log entry 7); that State holds RUN, VALID and `resetSeen` in profile COMB,
where they do not exist, and no step there changes them (log entries 4 and 7); and that an operand is truncated where
it meets its port (log entry 15). -/
def Obligations.GfmulFrame : Prop :=
  ∀ (a b : Nat) (s : State),
    (s.style = .comb → ∃ t, exec (.gfmul a b) s = .next t ∧
      t = { s with a := trunc8 a, b := trunc8 b, work := t.work }) ∧
    (s.style = .seq → ∀ t, exec (.gfmul a b) s = .next t →
      t = { s with a := trunc8 a, b := trunc8 b, work := t.work, run := t.run, valid := t.valid,
                   resetSeen := s.rst || s.resetSeen })

/-- R95: every operation starts from INIT, not from what the operation before left (so says R166 too); INIT truncates
its operands and does not initialise OVF. -/
def Obligations.OperationStartsFromInit : Prop :=
  (∀ (a b : Nat) (w : Work),
    (initWork (trunc8 a) (trunc8 b) w).acc = 0x00 ∧
    (initWork (trunc8 a) (trunc8 b) w).mcand.toNat = a % 256 ∧
    (initWork (trunc8 a) (trunc8 b) w).mplier.toNat = b % 256 ∧
    (initWork (trunc8 a) (trunc8 b) w).iter = 0 ∧ (initWork (trunc8 a) (trunc8 b) w).ovf = w.ovf) ∧
  ∀ (a b : Nat) (s : State), s.style = .comb → ∃ t, exec (.gfmul a b) s = .next t ∧
    t.work = iterations 8
      { acc := 0x00, mcand := trunc8 a, mplier := trunc8 b, ovf := s.work.ovf, iter := 0 }

/-- R29: the result depends on the operation's own operands and on nothing else; in profile SEQ the accepting edge
overwrites every register, so nothing is carried from one operation into the next. -/
def Obligations.ResultDependsOnOperandsOnly : Prop :=
  (∀ (a b : Nat) (s s' : State), s.style = .comb → s'.style = .comb →
    ∃ t t', exec (.gfmul a b) s = .next t ∧ exec (.gfmul a b) s' = .next t' ∧
      t.work = t'.work ∧ portP t = portP t') ∧
  ∀ s s' : State, SeqReady s → SeqReady s' → s.rst = false → s'.rst = false → s.run = false → s'.run = false →
    s.start = true → s'.start = true → s.a = s'.a → s.b = s'.b →
    ∃ t t', step s = .next t ∧ step s' = .next t' ∧ t.work.setOvf false = t'.work.setOvf false ∧
      t.run = t'.run ∧ t.valid = t'.valid

/-- R58 and R152: a value outside [0, 255] is truncated to its low byte, with no error. -/
def Obligations.WideOperandsAreTruncated : Prop :=
  ∀ (a b : Nat) (s : State),
    exec (.gfmul a b) s = exec (.gfmul (a % 256) (b % 256)) s ∧
    (s.style = .comb → Delivers (.gfmul a b) s (refMul (BitVec.ofNat 8 (a % 256)) (BitVec.ofNat 8 (b % 256))))

/-- Presenting the same pair again gives the same result again, and changes nothing (20_memory.md section 4).
That State holds the working registers in profile COMB, which stores none, is the model's form (log entry 17). -/
def Obligations.RepeatedOperationIsIdempotent : Prop :=
  ∀ (a b : Nat) (s : State), s.style = .comb →
    ∃ t, exec (.gfmul a b) s = .next t ∧ exec (.gfmul a b) t = .next t

/-- R171: no operation is affected by the one before it. -/
def Obligations.NoHazardBetweenOperations : Prop :=
  ∀ (i j : Instr) (s : State), s.style = .comb →
    ∃ t u, exec i s = .next t ∧ exec j t = .next u ∧ exec j s = .next u

/-- `p` is a function of the present values of `a` and `b` only, the product of the pair that is on the ports
(30_encoding.md section 1), and a host that holds a pair for at least T_PD samples its product (70_reset_and_hazards.md
section 3). The bench that counts time in the second clause is the model's choice (log entry 12). -/
def Obligations.OutputFollowsPresentPair : Prop :=
  (∀ s : State, s.style = .comb → portP s = refMul s.a s.b) ∧
  (∀ (a b n : Nat) (t : Bench), t.block.style = .comb → Config.tPd ≤ n →
    (benchSample (benchWait n (benchPresent a b t))).1 = refMul (trunc8 a) (trunc8 b))

/-- R99: exactly eight iterations, numbered 0 to 7, for every operand pair; the index advances by one an iteration. -/
def Obligations.ExactlyEightIterations : Prop :=
  (∀ (a b : Byte) (w : Work) (k : Nat), k ≤ 8 → (iterations k (initWork a b w)).iter.toNat = k) ∧
  (∀ (a b : Nat) (s : State), s.style = .comb → ∃ t, exec (.gfmul a b) s = .next t ∧ t.work.iter = 8) ∧
  (∀ s : State, SeqReady s → s.rst = false → s.run = true → s.work.iter.toNat ≤ 7 →
    ∃ t, step s = .next t ∧ t.work.iter.toNat = s.work.iter.toNat + 1)

/- ## The steps of an iteration -/

/-- R96, step 1: guarded form and the equivalent form without a guard; nothing but ACC is written. -/
def Obligations.AccumulateStep : Prop :=
  ∀ w : Work,
    (w.mplier.getLsbD 0 = true → accumulate w = { w with acc := w.acc ^^^ w.mcand }) ∧
    (w.mplier.getLsbD 0 = false → accumulate w = w) ∧
    accumulate w = { w with acc := w.acc ^^^ (w.mcand &&& BitVec.fill 8 (w.mplier.getLsbD 0)) }

/-- R116, step 2: OVF takes bit 7 of MCAND, equivalently the test against 0x80; nothing else is written. -/
def Obligations.CaptureOverflowStep : Prop :=
  ∀ w : Work, captureOvf w = { w with ovf := w.mcand.getLsbD 7 } ∧
    (captureOvf w).ovf = decide (w.mcand &&& 0x80#8 ≠ 0#8)

/-- R117, step 3: the shift keeps the low 8 bits; bit 0 becomes 0, bit k the old bit k-1; nothing else is written. -/
def Obligations.ShiftMultiplicandStep : Prop :=
  ∀ w : Work, shiftMcand w = { w with mcand := (shiftMcand w).mcand } ∧
    (shiftMcand w).mcand.toNat = 2 * w.mcand.toNat % 256 ∧ (shiftMcand w).mcand.getLsbD 0 = false ∧
    ∀ k, k < 7 → (shiftMcand w).mcand.getLsbD (k + 1) = w.mcand.getLsbD k

/-- R118, step 4: guarded form, the equivalent form without a guard, and bit 0 after steps 3 and 4 equal to OVF. -/
def Obligations.ReduceStep : Prop :=
  ∀ w : Work,
    (w.ovf = true → reduceMcand w = { w with mcand := w.mcand ^^^ 0x1B#8 }) ∧
    (w.ovf = false → reduceMcand w = w) ∧
    reduceMcand w = { w with mcand := w.mcand ^^^ (0x1B#8 &&& BitVec.fill 8 w.ovf) } ∧
    (reduceMcand (shiftMcand w)).mcand.getLsbD 0 = w.ovf

/-- R98, step 5: a logical shift, bit 7 becomes 0, bit k the old bit k+1; nothing else is written. -/
def Obligations.ShiftMultiplierStep : Prop :=
  ∀ w : Work, shiftMplier w = { w with mplier := (shiftMplier w).mplier } ∧
    (shiftMplier w).mplier.getLsbD 7 = false ∧
    ∀ k, k < 7 → (shiftMplier w).mplier.getLsbD k = w.mplier.getLsbD (k + 1)

/-- R24: OVF is written once in an iteration, with bit 7 of MCAND; the value it had before is read by nothing, and
INIT and FINAL neither write nor read it. -/
def Obligations.OverflowFlagWrittenBeforeRead : Prop :=
  ∀ (w : Work) (a b : Byte) (c : Bool),
    (iterStep w).ovf = w.mcand.getLsbD 7 ∧ iterStep (w.setOvf c) = iterStep w ∧
    (initWork a b w).ovf = w.ovf ∧ finalP (w.setOvf c) = finalP w ∧
    operate a b (w.setOvf c) = operate a b w

/-- R100: the statements of one iteration in the source's order, each reading what the ones before it wrote. -/
def Obligations.IterationFollowsSourceOrder : Prop :=
  ∀ w : Work, iterStep w =
    (let acc := if w.mplier.getLsbD 0 then w.acc ^^^ w.mcand else w.acc
     let ovf := w.mcand.getLsbD 7
     let shifted := BitVec.ofNat 8 (2 * w.mcand.toNat)
     let reduced := if ovf then shifted ^^^ 0x1B#8 else shifted
     { acc := acc, mcand := reduced, mplier := w.mplier >>> 1, ovf := ovf, iter := w.iter + 1 })

/-- The sequential and the parallel form of ITERSTEP give the same values for every state (41_iteration.md section 3,
which marks it "[derived: from rule R100]"). -/
def Obligations.SequentialAndParallelIterationAgree : Prop :=
  ∀ w : Work, iterStep w = iterStepParallel w

/-- R102: FINAL takes ACC after the last iteration; the mask never changes it, and it is what `p` shows. -/
def Obligations.FinalMaskIsIdentity : Prop :=
  (∀ w : Work, finalP w = w.acc ∧ finalP w = BitVec.ofNat 8 (w.acc.toNat % 256)) ∧
  ∀ (a b : Nat) (s : State), s.style = .comb →
    ∃ t, exec (.gfmul a b) s = .next t ∧ t.work.iter = 8 ∧ portP t = finalP t.work

/-- R104: the eight stages of profile COMB carry the values the iterations compute, and `p` is `ACC_8`. -/
def Obligations.StageNetsCarryIterationValues : Prop :=
  (∀ a b : Byte, accNet a b 0 = 0x00 ∧ mcandNet a 0 = a ∧ mplierNet b 0 = b) ∧
  (∀ (a b : Byte) (i : Nat), i < 8 →
    ovfNet a i = (mcandNet a i).getLsbD 7 ∧
    accNet a b (i + 1) = accNet a b i ^^^ (if b.getLsbD i then mcandNet a i else 0x00) ∧
    mcandNet a (i + 1) = xtime (mcandNet a i) ∧ mplierNet b (i + 1) = mplierNet b i >>> 1) ∧
  (∀ (a b : Byte) (w : Work) (i : Nat), i ≤ 8 →
    (iterations i (initWork a b w)).acc = accNet a b i ∧ (iterations i (initWork a b w)).mcand = mcandNet a i ∧
    (iterations i (initWork a b w)).mplier = mplierNet b i) ∧
  (∀ (a b : Byte) (w : Work) (i : Nat), i < 8 → (iterations (i + 1) (initWork a b w)).ovf = ovfNet a i) ∧
  ∀ s : State, s.style = .comb → portP s = accNet s.a s.b 8

/-- What holds before every iteration (41_iteration.md section 6, marked by the spec as its own inference): MPLIER is
`b >> i`, MCAND is `a` times `x^i`, ACC is the product of `a` and the low `i` bits of `b`. -/
def Obligations.IterationInvariants : Prop :=
  ∀ (a b : Byte) (w : Work) (i : Nat), i ≤ 8 →
    (iterations i (initWork a b w)).mplier = b >>> i ∧
    (iterations i (initWork a b w)).mcand = xtime^[i] a ∧
    (iterations i (initWork a b w)).mcand = refMul a (xtime^[i] 0x01) ∧
    (iterations i (initWork a b w)).acc = refMul a (b &&& BitVec.ofNat 8 (2 ^ i - 1)) ∧
    (iterations i (initWork a b w)).iter.toNat = i

/-- The values at the end that nothing uses (41_iteration.md section 6, the spec's own inference): MPLIER is 0x00,
MCAND is `a` times 0x1B, OVF is bit 7 of `MCAND_7`. -/
def Obligations.UnusedValuesAtTheEnd : Prop :=
  ∀ (a b : Nat) (s : State), s.style = .comb → ∃ t, exec (.gfmul a b) s = .next t ∧
    t.work.mplier = 0x00 ∧ t.work.mcand = refMul (trunc8 a) 0x1B ∧
    t.work.ovf = (xtime^[7] (trunc8 a)).getLsbD 7

/- ## The reduction logic -/

/-- R115: the reduction logic, steps 2 to 4 in this order after step 1, acts on MCAND only (and captures OVF), and
keeps MCAND equal to `poly(a)·x^i mod m(x)`. -/
def Obligations.MultiplicandTracksPowersOfX : Prop :=
  (∀ w : Work,
    iterStep w = advanceIter (shiftMplier (reduceMcand (shiftMcand (captureOvf (accumulate w))))) ∧
    reduceMcand (shiftMcand (captureOvf w)) =
      { w with mcand := (reduceMcand (shiftMcand (captureOvf w))).mcand, ovf := w.mcand.getLsbD 7 }) ∧
  ∀ (a b : Byte) (w : Work) (i : Nat),
    poly (iterations i (initWork a b w)).mcand = (poly a * X ^ i) %ₘ mPoly

/-- `x^8` is congruent to the polynomial of 0x1B, and XTIME is one multiplication by `x` modulo `m(x)`
(42_reduction.md section 4, the spec's own inference). -/
def Obligations.ReductionConstantFollowsFromPolynomial : Prop :=
  (X ^ 8 : Polynomial (ZMod 2)) %ₘ mPoly = poly 0x1B ∧
  ∀ v : Byte, poly (xtime v) = (poly v * X) %ₘ mPoly

/-- XTIME is the product with 0x02 from either side, the "doubling with reduction" (42_reduction.md section 3, the
spec's own inference). -/
def Obligations.XtimeIsDoubling : Prop :=
  ∀ (v : Byte) (s : State), s.style = .comb →
    Delivers (.gfmul v.toNat 0x02) s (xtime v) ∧ Delivers (.gfmul 0x02 v.toNat) s (xtime v)

/-- XTIME bit by bit (42_reduction.md section 3, the spec's own inference). -/
def Obligations.XtimeBitEquations : Prop :=
  ∀ v : Byte,
    (xtime v).getLsbD 0 = v.getLsbD 7 ∧ (xtime v).getLsbD 1 = (v.getLsbD 0 ^^ v.getLsbD 7) ∧
    (xtime v).getLsbD 2 = v.getLsbD 1 ∧ (xtime v).getLsbD 3 = (v.getLsbD 2 ^^ v.getLsbD 7) ∧
    (xtime v).getLsbD 4 = (v.getLsbD 3 ^^ v.getLsbD 7) ∧ (xtime v).getLsbD 5 = v.getLsbD 4 ∧
    (xtime v).getLsbD 6 = v.getLsbD 5 ∧ (xtime v).getLsbD 7 = v.getLsbD 6

/-- XTIME has the inverse the spec gives, is linear over XOR, maps only 0x00 to 0x00, and 51 applications of it give
every byte back (42_reduction.md section 4, the spec's own inference). -/
def Obligations.XtimeIsLinearBijection : Prop :=
  (∀ v : Byte, (xtime v >>> 1) ^^^ (if (xtime v).getLsbD 0 then 0x8D#8 else 0x00) = v) ∧
  (∀ u v : Byte, xtime (u ^^^ v) = xtime u ^^^ xtime v) ∧
  (∀ v : Byte, xtime v = 0x00 ↔ v = 0x00) ∧
  ∀ v : Byte, xtime^[51] v = v

/- ## Laws of the product -/

/-- R79, identity: both forms, and how each comes about. -/
def Obligations.IdentityLaw : Prop :=
  (∀ (x : Byte) (s : State), s.style = .comb → Delivers (.gfmul x.toNat 1) s x ∧ Delivers (.gfmul 1 x.toNat) s x) ∧
  (∀ (x : Byte) (i : Nat), i < 8 → accNet x 0x01 (i + 1) = x ∧ mcandNet 0x01 i = 0x01 <<< i) ∧
  ∀ i : Nat, i < 8 → (ovfNet 0x01 i = true ↔ i = 7)

/-- R80, absorption: both forms; zero is no special case, the same eight iterations run. -/
def Obligations.AbsorptionLaw : Prop :=
  (∀ (x : Byte) (s : State), s.style = .comb → Delivers (.gfmul x.toNat 0) s 0 ∧ Delivers (.gfmul 0 x.toNat) s 0) ∧
  (∀ (x : Byte) (i : Nat), i ≤ 8 → accNet x 0x00 i = 0x00 ∧ mplierNet 0x00 i = 0x00) ∧
  ∀ i : Nat, i ≤ 8 → mcandNet 0x00 i = 0x00 ∧ ovfNet 0x00 i = false

/-- R81, commutativity of the result; the internal values are not symmetric. -/
def Obligations.CommutativityLaw : Prop :=
  (∀ (a b : Nat) (s : State), s.style = .comb → ∃ v, Delivers (.gfmul a b) s v ∧ Delivers (.gfmul b a) s v) ∧
  (∀ s : State, s.style = .comb → Delivers (.gfmul 0x02 0x87) s 0x15 ∧ Delivers (.gfmul 0x87 0x02) s 0x15) ∧
  (accNet 0x02 0x87 1 ≠ accNet 0x87 0x02 1 ∧ mcandNet 0x02 1 ≠ mcandNet 0x87 1 ∧ ovfNet 0x02 0 ≠ ovfNet 0x87 0)

/-- Distributivity over XOR in the second operand (40_gfmul.md section 2: "for all a, b, c, `multiply(a, b ^ c) ==
multiply(a, b) ^ multiply(a, c)`"), and in the first, which the spec marks as its own inference there: "By rule R81 the
same holds in the first operand: ... [derived: from rule R81 and this rule]". -/
def Obligations.DistributivityLaw : Prop :=
  ∀ (a b c : Byte) (s : State), s.style = .comb →
    ∃ u v w : Byte, Delivers (.gfmul a.toNat b.toNat) s u ∧ Delivers (.gfmul a.toNat c.toNat) s v ∧
      Delivers (.gfmul a.toNat (b ^^^ c).toNat) s (u ^^^ v) ∧ Delivers (.gfmul c.toNat b.toNat) s w ∧
      Delivers (.gfmul (a ^^^ c).toNat b.toNat) s (u ^^^ w)

/-- The closed form of the result as a fold over the bits of `b` (40_gfmul.md section 4, the spec's own inference). -/
def Obligations.ClosedFormOfProduct : Prop :=
  ∀ (a b : Byte) (s : State), s.style = .comb → Delivers (.gfmul a.toNat b.toNat) s
    ((if b.getLsbD 0 then a else 0) ^^^ (if b.getLsbD 1 then xtime^[1] a else 0) ^^^
     (if b.getLsbD 2 then xtime^[2] a else 0) ^^^ (if b.getLsbD 3 then xtime^[3] a else 0) ^^^
     (if b.getLsbD 4 then xtime^[4] a else 0) ^^^ (if b.getLsbD 5 then xtime^[5] a else 0) ^^^
     (if b.getLsbD 6 then xtime^[6] a else 0) ^^^ (if b.getLsbD 7 then xtime^[7] a else 0))

/-- Associativity, no zero divisors, unique inverses, and every non-zero row a permutation (40_gfmul.md section 3,
the spec's own inference), of the output `p` of profile COMB. -/
def Obligations.ProductIsAssociativeWithUniqueInverses : Prop :=
  (∀ a b c : Byte, combOutput (combOutput a b) c = combOutput a (combOutput b c)) ∧
  (∀ a b : Byte, combOutput a b = 0x00 → a = 0x00 ∨ b = 0x00) ∧
  (∀ a : Byte, a ≠ 0x00 → ∃ b, combOutput a b = 0x01 ∧ ∀ c, combOutput a c = 0x01 → c = b) ∧
  ∀ a : Byte, a ≠ 0x00 → Function.Bijective (combOutput a)

/-- Orders of the multiplicative group (40_gfmul.md section 3, the spec's own inference): `a^255 = 1`, the byte 0x03
has order 255 and the byte 0x02 has order 51. -/
def Obligations.MultiplicativeOrders : Prop :=
  (∀ a : Byte, a ≠ 0x00 → gfPow a 255 = 0x01) ∧
  (∀ n : Nat, 0 < n → n < 255 → gfPow 0x03 n ≠ 0x01) ∧
  gfPow 0x02 51 = 0x01 ∧ ∀ n : Nat, 0 < n → n < 51 → gfPow 0x02 n ≠ 0x01

/- ## Several blocks -/

/-- Operations on different blocks do not interact (20_memory.md section 6, 60_exceptions.md section 5): every order
gives each operation the product of its own operands, no other block changes, and the steps of any two blocks that both
answer next states commute, in either profile. The system as a vector of blocks, in which an activity of a block writes
its own place only, is the model's choice (log entry 9); what a refused edge of one block does to the system is no part
of the statement (log entry 18). -/
def Obligations.BlocksDoNotInteract : Prop :=
  (∀ (n : Nat) (v : Blocks n) (j k : Fin n) (a b c d : Nat), j ≠ k →
    (v[j]).style = .comb → (v[k]).style = .comb →
    ∃ u : Blocks n,
      andThen (execAt j (.gfmul a b) v) (execAt k (.gfmul c d)) = .next u ∧
      andThen (execAt k (.gfmul c d) v) (execAt j (.gfmul a b)) = .next u ∧
      portP u[j] = refMul (trunc8 a) (trunc8 b) ∧ portP u[k] = refMul (trunc8 c) (trunc8 d) ∧
      ∀ l : Fin n, l ≠ j → l ≠ k → u[l] = v[l]) ∧
  (∀ (n : Nat) (v : Blocks n) (j k : Fin n) (t u : State), j ≠ k → step v[j] = .next t → step v[k] = .next u →
    ∃ x : Blocks n, andThen (stepAt j v) (stepAt k) = .next x ∧ andThen (stepAt k v) (stepAt j) = .next x ∧
      x[j] = t ∧ x[k] = u)

/- ## Reset -/

/-- R165: profile COMB has no reset input (the inputs of profile SEQ have no effect) and nothing to wait for: in
every state, the first one too, `p` is the product of the inputs, and an operation completes. -/
def Obligations.CombNeedsNoReset : Prop :=
  State.reset.style = .comb ∧
  ∀ (a b : Nat) (s : State), s.style = .comb → portP (present a b s) = refMul (trunc8 a) (trunc8 b) ∧
    Delivers (.gfmul a b) s (refMul (trunc8 a) (trunc8 b)) ∧
    ∃ t, step s = .next t ∧ ∀ r st : Bool, step (s.setInputs r st) = .next (t.setInputs r st)

/-- The model's state after reset is INIT for the operands on the ports: that INIT stands in for reset is
70_reset_and_hazards.md section 1; the port values and what profile SEQ has are the model's choice (log entries 1 to
4 and 7). -/
def Obligations.ResetStateIsInit : Prop :=
  ∀ w : Work, State.reset.work.setOvf w.ovf = initWork State.reset.a State.reset.b w

/- ## Profile SEQ -/

/-- A reset edge, in every state of profile SEQ, even before the first one and in the middle of an operation
(45_seq_profile.md section 2); before the first reset edge no other edge has a meaning (70_reset_and_hazards.md
section 1), and it is refused by name (U8 of 93_implementation_defined.md). The bit `resetSeen` and the refusal that
reads it are the model's own (log entry 7). -/
def Obligations.SeqResetEdge : Prop :=
  (∀ s : State, s.style = .seq → s.rst = true →
    step s = .next { s with
      work := { s.work with acc := 0x00, mcand := 0x00, mplier := 0x00, iter := 0 },
      run := false, valid := false, resetSeen := true }) ∧
  ∀ s : State, s.style = .seq → s.rst = false → s.resetSeen = false → step s = .refused .seqBeforeReset

/-- R134: an accepting edge. -/
def Obligations.SeqAcceptingEdge : Prop :=
  ∀ s : State, SeqReady s → s.rst = false → s.run = false → s.start = true →
    step s = .next { s with
      work := { s.work with acc := 0x00, mcand := s.a, mplier := s.b, iter := 0 },
      run := true, valid := false }

/-- R135: what an iterating edge does to the working registers; `start`, `a`, `b` are not looked at, and the inputs
are not changed. -/
def Obligations.SeqIteratingEdge : Prop :=
  ∀ s : State, SeqReady s → s.rst = false → s.run = true →
    ∃ t, step s = .next t ∧ t = { s with work := t.work, run := t.run, valid := t.valid } ∧
      t.work.acc = s.work.acc ^^^ (if s.work.mplier.getLsbD 0 then s.work.mcand else 0x00) ∧
      t.work.mcand = (s.work.mcand <<< 1) ^^^ (if s.work.mcand.getLsbD 7 then 0x1B#8 else 0x00) ∧
      t.work.mplier = s.work.mplier >>> 1 ∧ t.work.iter = s.work.iter + 1 ∧
      ∀ (st : Bool) (a b : Byte), step ((s.setPorts a b).setInputs false st) =
        .next ((t.setPorts a b).setInputs false st)

/-- R136: the iterating edge with `CNT = 7` completes the operation; at `CNT` in 0..6 RUN and VALID are unchanged. -/
def Obligations.SeqCompletion : Prop :=
  ∀ s : State, SeqReady s → s.rst = false → s.run = true → ∃ t, step s = .next t ∧
    (s.work.iter = 7 → t.run = false ∧ t.valid = true ∧ t.work.iter = 8 ∧
      ∀ a b : Byte, s.work.acc = accNet a b 7 → s.work.mcand = mcandNet a 7 → s.work.mplier = mplierNet b 7 →
        t.work.acc = refMul a b) ∧
    (s.work.iter.toNat ≤ 6 → t.run = true ∧ t.valid = false) ∧
    (s.work.iter.toNat ≤ 7 → t.work.iter.toNat ≤ 8)

/-- R142: a holding edge changes nothing. -/
def Obligations.SeqHoldingEdge : Prop :=
  ∀ s : State, SeqReady s → s.rst = false → s.run = false → s.start = false → step s = .next s

/-- R139: `start` while busy is ignored: the edge is the same iterating edge with and without it, the operands on the
ports are not sampled and nothing is queued. -/
def Obligations.SeqStartWhileBusyIsIgnored : Prop :=
  ∀ (s : State) (a b : Byte), SeqReady s → s.run = true →
    ∃ t, edge ⟨false, false, s.a, s.b⟩ s = .next t ∧
      edge ⟨false, true, a, b⟩ s = .next ((t.setPorts a b).setInputs false true)

/-- R140: `a` and `b` are read at the accepting edge and at no other: any other edge does the same whatever pair is on
the ports, and the accepting edge copies the pair. -/
def Obligations.SeqOperandsReadOnlyWhenAccepted : Prop :=
  ∀ s : State, SeqReady s →
    (s.rst = true ∨ s.run = true ∨ s.start = false →
      ∃ t, step s = .next t ∧ ∀ a b : Byte, step (s.setPorts a b) = .next (t.setPorts a b)) ∧
    (s.rst = false → s.run = false → s.start = true →
      ∃ t, step s = .next t ∧ t.work.mcand = s.a ∧ t.work.mplier = s.b)

/-- R137 and R138: from the accepting edge on, after `k` further edges without reset (whatever the inputs) the
registers hold the values before iteration `k`, `p` shows ACC, `busy` is 1 until the eighth and `done` is 1 after it,
when `p` is the product. So the earliest next accepting edge is the ninth. -/
def Obligations.SeqLatencyAndOutputs : Prop :=
  ∀ (s : State) (a b : Byte) (is : List SeqInputs), SeqReady s → s.run = false → is.length ≤ 8 →
    (∀ i ∈ is, i.rst = false) →
    ∃ t, edges (⟨false, true, a, b⟩ :: is) s = .next t ∧ t.work.iter.toNat = is.length ∧
      portP t = t.work.acc ∧ portP t = accNet a b is.length ∧ t.work.mcand = mcandNet a is.length ∧
      t.work.mplier = mplierNet b is.length ∧
      portBusy t = some (decide (is.length < 8)) ∧ portDone t = some (decide (is.length = 8)) ∧
      (is.length = 8 → portP t = refMul a b)

/-- Profile SEQ computes what profile COMB computes, on every pair (45_seq_profile.md section 3, the spec's own
inference). -/
def Obligations.SeqAgreesWithComb : Prop :=
  ∀ (s c : State) (a b : Byte) (is : List SeqInputs), SeqReady s → s.run = false → c.style = .comb →
    is.length = 8 → (∀ i ∈ is, i.rst = false) →
    ∃ t, edges (⟨false, true, a, b⟩ :: is) s = .next t ∧ Delivers (.gfmul a.toNat b.toNat) c (portP t)

/-- After a reset edge, an edge without reset is refused exactly in the states U9 of 93_implementation_defined.md
lists: `CNT` in 9..15, or `RUN = 1` with `VALID = 1` (log entry 8). That a reset edge has occurred is the model's bit
`resetSeen` (log entry 7). -/
def Obligations.SeqRefusedInUnreachableState : Prop :=
  ∀ s : State, s.style = .seq → s.rst = false → s.resetSeen = true →
    ((8 < s.work.iter.toNat ∨ (s.run = true ∧ s.valid = true)) ↔ step s = .refused .seqUnreachable)

/- ## The invariant -/

/-- The invariant holds of the model's reset state, and after a reset edge of profile SEQ in whatever state. The first
part rests on the model's choices: that the working registers stand at INIT there (log entry 2), and that RUN and VALID,
which 10_state.md section 8 says do not exist in profile COMB, stand at 0 (log entry 4). The second part is
45_seq_profile.md section 2; its premise in `BlockInv` is the model's bit `resetSeen` (log entry 7). -/
def Obligations.InvariantHoldsAtReset : Prop :=
  BlockInv State.reset ∧ ∀ s : State, s.style = .seq → s.rst = true → ∃ t, step s = .next t ∧ BlockInv t

/-- Every step keeps the invariant: ITER never exceeds 8, the working registers hold the nets of one operation at the
position ITER, and in profile SEQ the control registers agree with CNT. The clause of profile COMB that RUN and VALID
stay 0 is about fields that do not exist there, the model's choice (log entry 4), and State holds the working registers
there although the hardware stores none (log entry 17). That a reset edge of profile SEQ has occurred is the model's bit
`resetSeen` (log entry 7). (10_state.md section 4, 41_iteration.md section 5, 45_seq_profile.md section 2.) -/
def Obligations.StepKeepsInvariant : Prop :=
  ∀ s t : State, BlockInv s → step s = .next t → BlockInv t

/-- From a state that meets the invariant a step always answers a next state, but for an edge of profile SEQ before
the first reset edge: no exception, no halt, and the refusal of U9 is out of reach (60_exceptions.md section 1,
00_scope.md section 7). The two refusals are those of log entries 7 and 8. -/
def Obligations.InvariantStatesNeverStop : Prop :=
  ∀ s : State, BlockInv s → (s.style = .seq → s.resetSeen = true ∨ s.rst = true) → ∃ t, step s = .next t
end

