-- ==== Sys2Proof/Laws/Decode.lean ====
section
/-! SUPPORT. The fields of the operand word and their assembly: what the encoder and the decoder do to a pair of
bytes. -/

namespace Sys2Proof

theorem inRange_iff (v : Nat) : inRange v = true ↔ v ≤ 255 := by simp [inRange]

theorem wellFormed_gfmul_iff (a b : Nat) : (Instr.gfmul a b).wellFormed = true ↔ a ≤ 255 ∧ b ≤ 255 := by
  simp [Instr.wellFormed, inRange_iff]

/-- A byte read as an operand is in range. -/
theorem inRange_toNat (v : Byte) : inRange v.toNat = true :=
  (inRange_iff _).2 (Nat.le_of_lt_succ v.isLt)

theorem getLsbD_inOf (a b : Byte) (k : Nat) :
    (inOf a b).getLsbD k = if k < 8 then b.getLsbD k else a.getLsbD (k - 8) :=
  BitVec.getLsbD_append

theorem getLsbD_fieldA (w : InWord) {k : Nat} (h : k < 8) : (fieldA w).getLsbD k = w.getLsbD (k + 8) := by
  simp [fieldA, h, Nat.add_comm]

theorem getLsbD_fieldB (w : InWord) {k : Nat} (h : k < 8) : (fieldB w).getLsbD k = w.getLsbD k := by
  simp [fieldB, h]

@[simp] theorem fieldA_inOf (a b : Byte) : fieldA (inOf a b) = a := by
  refine BitVec.eq_of_getLsbD_eq fun k hk => ?_
  rw [getLsbD_fieldA _ hk, getLsbD_inOf, if_neg (by omega), Nat.add_sub_cancel]

@[simp] theorem fieldB_inOf (a b : Byte) : fieldB (inOf a b) = b := by
  refine BitVec.eq_of_getLsbD_eq fun k hk => ?_
  rw [getLsbD_fieldB _ hk, getLsbD_inOf, if_pos hk]

@[simp] theorem inOf_fields (w : InWord) : inOf (fieldA w) (fieldB w) = w := by
  refine BitVec.eq_of_getLsbD_eq fun k hk => ?_
  rw [getLsbD_inOf]
  split
  · exact getLsbD_fieldB _ ‹_›
  · rw [getLsbD_fieldA _ (by omega), Nat.sub_add_cancel (by omega)]

theorem decodeIn_inOf (a b : Byte) : decodeIn (inOf a b) = .gfmul a.toNat b.toNat := by
  simp [decodeIn]

theorem tableWord_toNat (w : InWord) : tableWord 16 w.toNat = w := by
  have h : w.toNat < 2 ^ 16 := w.isLt
  simp only [tableWord, Nat.mod_eq_of_lt h, BitVec.ofNat_toNat, BitVec.setWidth_eq]

end Sys2Proof
end

