-- ==== Sys2Proof/Laws/State.lean ====
section
/-! SUPPORT. One lemma per field per update of the working state and of the state, so that no proof unfolds a record
update. -/

namespace Sys2Proof.Machine

@[simp] theorem Work.setAcc_acc (w : Work) (v : Byte) : (w.setAcc v).acc = v := rfl
@[simp] theorem Work.setAcc_mcand (w : Work) (v : Byte) : (w.setAcc v).mcand = w.mcand := rfl
@[simp] theorem Work.setAcc_mplier (w : Work) (v : Byte) : (w.setAcc v).mplier = w.mplier := rfl
@[simp] theorem Work.setAcc_ovf (w : Work) (v : Byte) : (w.setAcc v).ovf = w.ovf := rfl
@[simp] theorem Work.setAcc_iter (w : Work) (v : Byte) : (w.setAcc v).iter = w.iter := rfl

@[simp] theorem Work.setMcand_acc (w : Work) (v : Byte) : (w.setMcand v).acc = w.acc := rfl
@[simp] theorem Work.setMcand_mcand (w : Work) (v : Byte) : (w.setMcand v).mcand = v := rfl
@[simp] theorem Work.setMcand_mplier (w : Work) (v : Byte) : (w.setMcand v).mplier = w.mplier := rfl
@[simp] theorem Work.setMcand_ovf (w : Work) (v : Byte) : (w.setMcand v).ovf = w.ovf := rfl
@[simp] theorem Work.setMcand_iter (w : Work) (v : Byte) : (w.setMcand v).iter = w.iter := rfl

@[simp] theorem Work.setMplier_acc (w : Work) (v : Byte) : (w.setMplier v).acc = w.acc := rfl
@[simp] theorem Work.setMplier_mcand (w : Work) (v : Byte) : (w.setMplier v).mcand = w.mcand := rfl
@[simp] theorem Work.setMplier_mplier (w : Work) (v : Byte) : (w.setMplier v).mplier = v := rfl
@[simp] theorem Work.setMplier_ovf (w : Work) (v : Byte) : (w.setMplier v).ovf = w.ovf := rfl
@[simp] theorem Work.setMplier_iter (w : Work) (v : Byte) : (w.setMplier v).iter = w.iter := rfl

@[simp] theorem Work.setOvf_acc (w : Work) (c : Bool) : (w.setOvf c).acc = w.acc := rfl
@[simp] theorem Work.setOvf_mcand (w : Work) (c : Bool) : (w.setOvf c).mcand = w.mcand := rfl
@[simp] theorem Work.setOvf_mplier (w : Work) (c : Bool) : (w.setOvf c).mplier = w.mplier := rfl
@[simp] theorem Work.setOvf_ovf (w : Work) (c : Bool) : (w.setOvf c).ovf = c := rfl
@[simp] theorem Work.setOvf_iter (w : Work) (c : Bool) : (w.setOvf c).iter = w.iter := rfl

@[simp] theorem Work.setIter_acc (w : Work) (n : Count) : (w.setIter n).acc = w.acc := rfl
@[simp] theorem Work.setIter_mcand (w : Work) (n : Count) : (w.setIter n).mcand = w.mcand := rfl
@[simp] theorem Work.setIter_mplier (w : Work) (n : Count) : (w.setIter n).mplier = w.mplier := rfl
@[simp] theorem Work.setIter_ovf (w : Work) (n : Count) : (w.setIter n).ovf = w.ovf := rfl
@[simp] theorem Work.setIter_iter (w : Work) (n : Count) : (w.setIter n).iter = n := rfl

@[simp] theorem State.setPorts_style (s : State) (a b : Byte) : (s.setPorts a b).style = s.style := rfl
@[simp] theorem State.setPorts_a (s : State) (a b : Byte) : (s.setPorts a b).a = a := rfl
@[simp] theorem State.setPorts_b (s : State) (a b : Byte) : (s.setPorts a b).b = b := rfl
@[simp] theorem State.setPorts_rst (s : State) (a b : Byte) : (s.setPorts a b).rst = s.rst := rfl
@[simp] theorem State.setPorts_start (s : State) (a b : Byte) : (s.setPorts a b).start = s.start := rfl
@[simp] theorem State.setPorts_work (s : State) (a b : Byte) : (s.setPorts a b).work = s.work := rfl
@[simp] theorem State.setPorts_run (s : State) (a b : Byte) : (s.setPorts a b).run = s.run := rfl
@[simp] theorem State.setPorts_valid (s : State) (a b : Byte) : (s.setPorts a b).valid = s.valid := rfl
@[simp] theorem State.setPorts_resetSeen (s : State) (a b : Byte) : (s.setPorts a b).resetSeen = s.resetSeen := rfl

@[simp] theorem State.setInputs_style (s : State) (rst start : Bool) : (s.setInputs rst start).style = s.style := rfl
@[simp] theorem State.setInputs_a (s : State) (rst start : Bool) : (s.setInputs rst start).a = s.a := rfl
@[simp] theorem State.setInputs_b (s : State) (rst start : Bool) : (s.setInputs rst start).b = s.b := rfl
@[simp] theorem State.setInputs_rst (s : State) (rst start : Bool) : (s.setInputs rst start).rst = rst := rfl
@[simp] theorem State.setInputs_start (s : State) (rst start : Bool) : (s.setInputs rst start).start = start := rfl
@[simp] theorem State.setInputs_work (s : State) (rst start : Bool) : (s.setInputs rst start).work = s.work := rfl
@[simp] theorem State.setInputs_run (s : State) (rst start : Bool) : (s.setInputs rst start).run = s.run := rfl
@[simp] theorem State.setInputs_valid (s : State) (rst start : Bool) : (s.setInputs rst start).valid = s.valid := rfl
@[simp] theorem State.setInputs_resetSeen (s : State) (rst start : Bool) : (s.setInputs rst start).resetSeen = s.resetSeen := rfl

@[simp] theorem State.setWork_style (s : State) (w : Work) : (s.setWork w).style = s.style := rfl
@[simp] theorem State.setWork_a (s : State) (w : Work) : (s.setWork w).a = s.a := rfl
@[simp] theorem State.setWork_b (s : State) (w : Work) : (s.setWork w).b = s.b := rfl
@[simp] theorem State.setWork_rst (s : State) (w : Work) : (s.setWork w).rst = s.rst := rfl
@[simp] theorem State.setWork_start (s : State) (w : Work) : (s.setWork w).start = s.start := rfl
@[simp] theorem State.setWork_work (s : State) (w : Work) : (s.setWork w).work = w := rfl
@[simp] theorem State.setWork_run (s : State) (w : Work) : (s.setWork w).run = s.run := rfl
@[simp] theorem State.setWork_valid (s : State) (w : Work) : (s.setWork w).valid = s.valid := rfl
@[simp] theorem State.setWork_resetSeen (s : State) (w : Work) : (s.setWork w).resetSeen = s.resetSeen := rfl

@[simp] theorem State.setControl_style (s : State) (run valid : Bool) : (s.setControl run valid).style = s.style := rfl
@[simp] theorem State.setControl_a (s : State) (run valid : Bool) : (s.setControl run valid).a = s.a := rfl
@[simp] theorem State.setControl_b (s : State) (run valid : Bool) : (s.setControl run valid).b = s.b := rfl
@[simp] theorem State.setControl_rst (s : State) (run valid : Bool) : (s.setControl run valid).rst = s.rst := rfl
@[simp] theorem State.setControl_start (s : State) (run valid : Bool) : (s.setControl run valid).start = s.start := rfl
@[simp] theorem State.setControl_work (s : State) (run valid : Bool) : (s.setControl run valid).work = s.work := rfl
@[simp] theorem State.setControl_run (s : State) (run valid : Bool) : (s.setControl run valid).run = run := rfl
@[simp] theorem State.setControl_valid (s : State) (run valid : Bool) : (s.setControl run valid).valid = valid := rfl
@[simp] theorem State.setControl_resetSeen (s : State) (run valid : Bool) : (s.setControl run valid).resetSeen = s.resetSeen := rfl

@[simp] theorem State.setResetSeen_style (s : State) (seen : Bool) : (s.setResetSeen seen).style = s.style := rfl
@[simp] theorem State.setResetSeen_a (s : State) (seen : Bool) : (s.setResetSeen seen).a = s.a := rfl
@[simp] theorem State.setResetSeen_b (s : State) (seen : Bool) : (s.setResetSeen seen).b = s.b := rfl
@[simp] theorem State.setResetSeen_rst (s : State) (seen : Bool) : (s.setResetSeen seen).rst = s.rst := rfl
@[simp] theorem State.setResetSeen_start (s : State) (seen : Bool) : (s.setResetSeen seen).start = s.start := rfl
@[simp] theorem State.setResetSeen_work (s : State) (seen : Bool) : (s.setResetSeen seen).work = s.work := rfl
@[simp] theorem State.setResetSeen_run (s : State) (seen : Bool) : (s.setResetSeen seen).run = s.run := rfl
@[simp] theorem State.setResetSeen_valid (s : State) (seen : Bool) : (s.setResetSeen seen).valid = s.valid := rfl
@[simp] theorem State.setResetSeen_resetSeen (s : State) (seen : Bool) : (s.setResetSeen seen).resetSeen = seen := rfl

end Sys2Proof.Machine
end

