-- ==== Sys2Proof/Laws/Ops.lean ====
section
/-! SUPPORT. What each operation on the working state and on the ports does, once, for the proofs to cite. -/

namespace Sys2Proof.Machine

@[simp] theorem trunc8_toNat (v : Byte) : trunc8 v.toNat = v := by simp [trunc8]

theorem trunc8_mod (v : Nat) : trunc8 (v % 256) = trunc8 v := by
  simp [trunc8, BitVec.toNat_eq]

/-- Presenting the pair that is on the ports changes nothing. -/
@[simp] theorem present_self (s : State) : present s.a.toNat s.b.toNat s = s := by
  simp [present, State.setPorts]

/-- A second presentation replaces the first. -/
@[simp] theorem present_present (a b c d : Nat) (s : State) : present a b (present c d s) = present a b s := rfl

theorem initWork_eq (a b : Byte) (w : Work) :
    initWork a b w = { acc := 0x00, mcand := a, mplier := b, ovf := w.ovf, iter := 0 } := rfl

/-- INIT forgets everything but OVF. -/
theorem initWork_congr (a b : Byte) {w w' : Work} (h : w.ovf = w'.ovf) : initWork a b w = initWork a b w' := by
  rw [initWork_eq, initWork_eq, h]

theorem accumulate_eq (w : Work) :
    accumulate w = w.setAcc (w.acc ^^^ (if w.mplier.getLsbD 0 then w.mcand else 0x00)) := by
  obtain ⟨acc, mcand, mplier, ovf, iter⟩ := w
  by_cases h : mplier.getLsbD 0 = true <;> simp only [accumulate, h, Work.setAcc] <;> simp

theorem reduceMcand_eq (w : Work) :
    reduceMcand w = w.setMcand (w.mcand ^^^ (if w.ovf then Config.red else 0x00)) := by
  obtain ⟨acc, mcand, mplier, ovf, iter⟩ := w
  cases ovf <;> simp [reduceMcand, Work.setMcand]

@[simp] theorem iterations_zero (w : Work) : iterations 0 w = w := rfl

theorem iterations_succ (n : Nat) (w : Work) : iterations (n + 1) w = iterations n (iterStep w) := rfl

/-- The last of `n + 1` iterations, peeled off: the form an induction over the iterations uses. -/
theorem iterations_succ_last (n : Nat) (w : Work) : iterations (n + 1) w = iterStep (iterations n w) := by
  induction n generalizing w with
  | zero => rfl
  | succ n ih => rw [iterations_succ, ih, ← iterations_succ]

/-- What holds of INIT and is kept by an iteration holds after any number of iterations. -/
theorem iterations_induction (P : Nat → Work → Prop) (w : Work) (h0 : P 0 w)
    (hs : ∀ n v, P n v → P (n + 1) (iterStep v)) (n : Nat) : P n (iterations n w) := by
  induction n with
  | zero => exact h0
  | succ n ih => rw [iterations_succ_last]; exact hs n _ ih

end Sys2Proof.Machine
end

