-- ==== Sys2Proof/Laws/Seq.lean ====
section
/-! SUPPORT. Profile SEQ: what an edge can do, once, and what each kind of edge leaves alone. -/

namespace Sys2Proof.Machine

/-- Everything an edge that answers a next state can do: one of the four cases, with its guard (R132). -/
theorem seqEdge_cases {s t : State} (h : seqEdge s = .next t) :
    (s.rst = true ∧ t = resetEdge s) ∨
    (s.rst = false ∧ s.resetSeen = true ∧ seqUnreachable s = false ∧
      ((s.run = false ∧ s.start = true ∧ t = acceptEdge s) ∨ (s.run = true ∧ t = iterateEdge s) ∨
        (s.run = false ∧ s.start = false ∧ t = s))) := by
  unfold seqEdge at h
  split at h
  · exact .inl ⟨‹_›, by simpa using h.symm⟩
  · split at h
    · cases h
    · split at h
      · cases h
      · refine .inr ⟨by simp_all, by simp_all, by simp_all, ?_⟩
        split at h
        · exact .inl ⟨by simp_all, by simp_all, by simpa using h.symm⟩
        · split at h
          · exact .inr (.inl ⟨‹_›, by simpa using h.symm⟩)
          · exact .inr (.inr ⟨by simp_all, by simp_all, by simpa using h.symm⟩)

/-- An iterating edge in one form: the control registers change when `CNT` is 7. -/
theorem iterateEdge_eq (s : State) :
    iterateEdge s = (s.setWork (iterStepParallel s.work)).setControl
      (if s.work.iter = 7 then false else s.run) (if s.work.iter = 7 then true else s.valid) := by
  unfold iterateEdge
  split <;> rfl

/-- No edge changes the inputs or the parameter. -/
theorem seqEdge_inputs {s t : State} (h : seqEdge s = .next t) :
    t.style = s.style ∧ t.a = s.a ∧ t.b = s.b ∧ t.rst = s.rst ∧ t.start = s.start := by
  rcases seqEdge_cases h with ⟨-, rfl⟩ | ⟨-, -, -, ⟨-, -, rfl⟩ | ⟨-, rfl⟩ | ⟨-, -, rfl⟩⟩ <;>
    simp [resetEdge, acceptEdge, iterateEdge_eq]

end Sys2Proof.Machine
end

