-- ==== Sys2Proof/Laws/Exec.lean ====
section
/-! SUPPORT. The operation, the step, the edges of profile SEQ and the blocks of a system: the one equation of each
that proofs rewrite with. -/

namespace Sys2Proof.Machine

theorem exec_gfmul (a b : Nat) (s : State) : exec (.gfmul a b) s = execGfmul a b s := rfl

@[simp] theorem present_style (a b : Nat) (s : State) : (present a b s).style = s.style := rfl

/-- GFMUL in profile COMB: the whole operation, always with a next state. -/
theorem exec_comb {s : State} (h : s.style = .comb) (a b : Nat) :
    exec (.gfmul a b) s = .next (combOperation (present a b s)) := by
  simp [exec, execGfmul, h]

/-- GFMUL in profile SEQ: one edge with the pair on the ports. -/
theorem exec_seq {s : State} (h : s.style = .seq) (a b : Nat) :
    exec (.gfmul a b) s = seqEdge (present a b s) := by
  simp [exec, execGfmul, h]

/-- A step of profile COMB is the operation of the pair on the ports. -/
theorem step_comb {s : State} (h : s.style = .comb) : step s = .next (combOperation s) := by
  simp [step, portWord, decodeIn, exec_comb h]

/-- A step of profile SEQ is an edge. -/
theorem step_seq {s : State} (h : s.style = .seq) : step s = seqEdge s := by
  simp [step, portWord, decodeIn, exec_seq h]

/-- Everything a step that answers a next state can do. -/
theorem step_cases {s t : State} (h : step s = .next t) :
    (s.style = .comb ∧ t = combOperation s) ∨ (s.style = .seq ∧ seqEdge s = .next t) := by
  cases hs : s.style with
  | comb => exact .inl ⟨rfl, by simpa using ((step_comb hs).symm.trans h).symm⟩
  | seq => exact .inr ⟨rfl, (step_seq hs).symm.trans h⟩

@[simp] theorem edges_nil (s : State) : edges [] s = .next s := rfl

theorem edges_cons_next {i : SeqInputs} {s t : State} (h : edge i s = .next t) (is : List SeqInputs) :
    edges (i :: is) s = edges is t := by
  simp [edges, h]

theorem execAt_next {n : Nat} {v : Blocks n} {k : Fin n} {i : Instr} {t : State} (h : exec i v[k] = .next t) :
    execAt k i v = .next (v.set k t) := by
  simp only [execAt, h, putBack]

theorem stepAt_next {n : Nat} {v : Blocks n} {k : Fin n} {t : State} (h : step v[k] = .next t) :
    stepAt k v = .next (v.set k t) := by
  simp only [stepAt, h, putBack]

@[simp] theorem andThen_next {α : Type} (t : α) (f : α → Host.Outcome α Fault Refusal) :
    andThen (.next t) f = f t := rfl

end Sys2Proof.Machine
end

