-- ==== Sys2Proof/Laws/PerInstr.lean ====
section
/-! SUPPORT. Families of statements about every operation as syntax, one lemma per constructor of Instr. -/

namespace Sys2Proof.Laws

/-- The encoder puts the low byte of the first operand in [15:8] and of the second in [7:0], in range or not. -/
def OperandFields.Statement : Instr → Prop
  | .gfmul a b => (fieldA (encode (.gfmul a b))).toNat = a % 256 ∧ (fieldB (encode (.gfmul a b))).toNat = b % 256

theorem OperandFields.gfmul (a b : Nat) : OperandFields.Statement (.gfmul a b) := by
  simp [OperandFields.Statement, encode]

end Sys2Proof.Laws
end

