-- ==== Sys2Proof/Tests/Slice0.lean ====
section
/-! SUPPORT. The model's own tests: the well-formedness smoke, decoding of words written out from the spec, a few
vectors of spec/95_test_vectors.md, and for every statement with hypotheses a state and operands that meet them. -/

namespace Sys2Proof.Tests

open Sys2Proof.Machine Sys2Proof.Safety

/-! ### Helpers -/

/-- What an outcome's next state shows, where there is one. -/
def show? {α : Type} (o : Host.Outcome State Fault Refusal) (f : State → α) : Option α :=
  match o with
  | .next t => some (f t)
  | .fault _ => none
  | .refused _ => none

/-- A block of profile COMB with leftovers of no operation in its registers. -/
def combUsed : State := { State.reset with work := ⟨0x12, 0x34, 0x56, true, 3⟩ }

/-- A block of profile SEQ, idle since its reset edge, with the pair `a`, `b` on its ports. -/
def seqIdle (start : Bool) (a b : Byte) : State :=
  { State.reset with style := .seq, resetSeen := true, start := start, a := a, b := b }

/-- A busy block of profile SEQ at position `n` of `GFMUL 0x57, 0x83`. -/
def seqBusy (n : Nat) : State :=
  { State.reset with
    style := .seq, resetSeen := true, run := true,
    work := ⟨accNet 0x57 0x83 n, mcandNet 0x57 n, mplierNet 0x83 n, false, BitVec.ofNat 4 n⟩ }

/-- A block of profile SEQ before its first reset edge, with unknown registers. -/
def seqPowerUp (rst : Bool) : State :=
  { State.reset with style := .seq, rst := rst, run := true, valid := true, work := ⟨0xAA, 0x01, 0x02, true, 11⟩ }

/-! ### Well-formedness -/

theorem test_wellFormed_refuses_wide_a : (Instr.gfmul 256 0).wellFormed = false := by decide
theorem test_wellFormed_refuses_wide_b : (Instr.gfmul 0 256).wellFormed = false := by decide
theorem test_wellFormed_accepts_all_ones : (Instr.gfmul 255 255).wellFormed = true := by decide

/-! ### Decoding, from the format of 30_encoding.md R57: `a` in bits 15..8, `b` in bits 7..0 -/

theorem test_decode_vector_V1 : decodeIn 0b0101011110000011 = .gfmul 0x57 0x83 := by decide
theorem test_decode_only_a : decodeIn 0b1111111100000000 = .gfmul 0xFF 0x00 := by decide
theorem test_encode_vector_V2 : encode (.gfmul 0x02 0x87) = 0x0287 := by decide
theorem test_table_word : decodeTableWord 16 0x5783 = some (.gfmul 0x57 0x83) := by decide
theorem test_table_word_too_wide : decodeTableWord 16 0x15783 = none := by decide
theorem test_decode_bytes : decode [0x57, 0x83] = .ok (.gfmul 0x57 0x83) := by decide
theorem test_decode_one_byte : decode [0x57] = .error .missingOperand := by decide
theorem test_decode_three_bytes : decode [0x57, 0x83, 0x00] = .error .extraBytes := by decide

/-! ### GFMUL -/

/-- 95_test_vectors.md section 3.7, wide operands with the low bytes of trace T1, from a block with leftovers; row 8 of
T1: `p = ACC = 0xC1`, MCAND 0x70, MPLIER 0x00, OVF 0. -/
theorem test_gfmul_comb : show? (exec (.gfmul 0x157 0x283) combUsed) (fun t => (portP t, t.work)) =
    some (0xC1, ⟨0xC1, 0x70, 0x00, false, 8⟩) := by
  decide +kernel

/-- 95_test_vectors.md section 4, edge 10: the eighth iterating edge completes `GFMUL 0x57, 0x83`. -/
theorem test_gfmul_seq : show? (step (seqBusy 7)) (fun t => (portP t, t.work.mcand, t.work.iter, portBusy t, portDone t)) =
    some (0xC1, 0x70, 8, some false, some true) := by decide

/-! ### Steps of an iteration, 95_test_vectors.md sections 3.4, 3.6 and 3.7 -/

theorem test_xtime_vectors :
    [0x57, 0xAE, 0x80, 0x8D, 0xC0, 0xFF].map xtime = ([0xAE, 0x47, 0x1B, 0x01, 0x9B, 0xE5] : List Byte) := by decide

theorem test_iterStep_vector : iterStep ⟨0x9A, 0xBC, 0xDF, false, 0⟩ = ⟨0x26, 0x63, 0x6F, true, 1⟩ := by decide

theorem test_reference_vectors :
    (refMul 0x57 0x83, refMul 0x80 0x80, refMul 0xFF 0xFF, refMul 0x53 0xCA) = (0xC1, 0x9A, 0x13, 0x01) := by decide

/-! ### Witnesses: a state and operands that meet the hypotheses of each statement -/

theorem witness_DecodeInvertsEncode : (Instr.gfmul 0xFF 0x00).wellFormed = true := by decide

theorem witness_EveryOperandWordIsGfmul : combUsed.style = .comb := rfl

theorem witness_OnlyOperationIsGfmulOnPortPair : (0 < 8 ∧ 7 < 8) ∧ combUsed.style = .comb := by decide

theorem witness_StepRunsDecodedOperation :
    decodeTableWord 16 0xFFFF = some (.gfmul 0xFF 0xFF) ∧ decodeTableWord 8 0x83 = some (.gfmul 0x00 0x83) ∧
    combUsed.style = .comb ∧ (seqIdle false 0 0).style = .seq := by decide

theorem witness_StepLeavesInputsAndStyle :
    show? (step combUsed) State.style = some .comb ∧ show? (step (seqIdle true 0x57 0x83)) State.style = some .seq := by
  decide

theorem witness_GfmulDeliversReferenceProduct : combUsed.style = .comb := rfl
theorem witness_GfmulIsProductModuloPolynomial : combUsed.style = .comb := rfl

theorem witness_GfmulFrame : combUsed.style = .comb ∧ (seqIdle true 0 0).style = .seq ∧
    show? (exec (.gfmul 0x57 0x83) (seqIdle true 0 0)) State.run = some true := by decide

theorem witness_OperationStartsFromInit : combUsed.style = .comb := rfl

theorem witness_ResultDependsOnOperandsOnly :
    (combUsed.style = .comb ∧ State.reset.style = .comb ∧ combUsed ≠ State.reset) ∧
    SeqReady (seqIdle true 0x57 0x83) ∧ (seqIdle true 0x57 0x83).rst = false ∧
    (seqIdle true 0x57 0x83).run = false ∧ (seqIdle true 0x57 0x83).start = true ∧
    SeqReady { seqIdle true 0x57 0x83 with valid := true, work := ⟨0x15, 0x36, 0x00, true, 8⟩ } := by
  unfold SeqReady; decide

theorem witness_WideOperandsAreTruncated : combUsed.style = .comb := rfl
theorem witness_RepeatedOperationIsIdempotent : combUsed.style = .comb := rfl
theorem witness_NoHazardBetweenOperations : combUsed.style = .comb := rfl

theorem witness_OutputFollowsPresentPair :
    (Bench.mk combUsed 0 0).block.style = .comb ∧ Config.tPd ≤ Config.tPd := ⟨rfl, Nat.le_refl _⟩

theorem witness_ExactlyEightIterations : (0 ≤ 8 ∧ 8 ≤ 8) ∧ combUsed.style = .comb ∧
    SeqReady (seqBusy 0) ∧ (seqBusy 0).rst = false ∧ (seqBusy 0).run = true ∧ (seqBusy 0).work.iter.toNat ≤ 7 ∧
    SeqReady (seqBusy 7) ∧ (seqBusy 7).run = true ∧ (seqBusy 7).work.iter.toNat ≤ 7 := by
  unfold SeqReady; decide

theorem witness_AccumulateStep :
    (seqBusy 0).work.mplier.getLsbD 0 = true ∧ (seqBusy 2).work.mplier.getLsbD 0 = false := by decide

theorem witness_ShiftMultiplicandStep : 0 < 7 ∧ 6 < 7 := by decide
theorem witness_ReduceStep : combUsed.work.ovf = true ∧ State.reset.work.ovf = false := by decide
theorem witness_ShiftMultiplierStep : 0 < 7 ∧ 6 < 7 := by decide
theorem witness_FinalMaskIsIdentity : combUsed.style = .comb := rfl

theorem witness_StageNetsCarryIterationValues :
    (0 < 8 ∧ 7 < 8) ∧ (0 ≤ 8 ∧ 8 ≤ 8) ∧ combUsed.style = .comb := by decide

theorem witness_IterationInvariants : 0 ≤ 8 ∧ 8 ≤ 8 := by decide
theorem witness_UnusedValuesAtTheEnd : combUsed.style = .comb := rfl
theorem witness_XtimeIsDoubling : combUsed.style = .comb := rfl

theorem witness_IdentityLaw : combUsed.style = .comb ∧ 0 < 8 ∧ 7 < 8 := by decide
theorem witness_AbsorptionLaw : combUsed.style = .comb ∧ 0 ≤ 8 ∧ 8 ≤ 8 := by decide
theorem witness_CommutativityLaw : combUsed.style = .comb := rfl
theorem witness_DistributivityLaw : combUsed.style = .comb := rfl
theorem witness_ClosedFormOfProduct : combUsed.style = .comb := rfl

theorem witness_ProductIsAssociativeWithUniqueInverses :
    combOutput 0x00 0xFF = 0x00 ∧ (0x53 : Byte) ≠ 0x00 ∧ combOutput 0x53 0xCA = 0x01 := by decide

theorem witness_MultiplicativeOrders : (0x01 : Byte) ≠ 0x00 ∧ (0 < 1 ∧ 1 < 255) ∧ (0 < 254 ∧ 254 < 255) ∧
    (0 < 50 ∧ 50 < 51) := by decide

/-- Three blocks: two of profile COMB and one of profile SEQ. -/
def threeBlocks : Blocks 3 := ⟨#[combUsed, State.reset, seqIdle true 0x57 0x83], rfl⟩

theorem witness_BlocksDoNotInteract :
    ((0 : Fin 3) ≠ 1 ∧ (threeBlocks[(0 : Fin 3)]).style = .comb ∧ (threeBlocks[(1 : Fin 3)]).style = .comb) ∧
    ((0 : Fin 3) ≠ 2 ∧ show? (step threeBlocks[(0 : Fin 3)]) State.run = some false ∧
      show? (step threeBlocks[(2 : Fin 3)]) State.run = some true) := by decide

theorem witness_CombNeedsNoReset : combUsed.style = .comb := rfl

theorem witness_SeqResetEdge :
    ((seqPowerUp true).style = .seq ∧ (seqPowerUp true).rst = true) ∧
    ((seqPowerUp false).style = .seq ∧ (seqPowerUp false).rst = false ∧ (seqPowerUp false).resetSeen = false) := by
  decide

theorem witness_SeqAcceptingEdge : SeqReady (seqIdle true 0x57 0x83) ∧ (seqIdle true 0x57 0x83).rst = false ∧
    (seqIdle true 0x57 0x83).run = false ∧ (seqIdle true 0x57 0x83).start = true := by unfold SeqReady; decide

theorem witness_SeqIteratingEdge : SeqReady (seqBusy 0) ∧ (seqBusy 0).rst = false ∧ (seqBusy 0).run = true := by
  unfold SeqReady; decide

theorem witness_SeqCompletion :
    (SeqReady (seqBusy 7) ∧ (seqBusy 7).rst = false ∧ (seqBusy 7).run = true ∧ (seqBusy 7).work.iter = 7 ∧
      (seqBusy 7).work.acc = accNet 0x57 0x83 7 ∧ (seqBusy 7).work.mcand = mcandNet 0x57 7 ∧
      (seqBusy 7).work.mplier = mplierNet 0x83 7) ∧
    (SeqReady (seqBusy 0) ∧ (seqBusy 0).run = true ∧ (seqBusy 0).work.iter.toNat ≤ 6) ∧
    (SeqReady (seqBusy 6) ∧ (seqBusy 6).run = true ∧ (seqBusy 6).work.iter.toNat ≤ 6) ∧
    ((seqBusy 7).work.iter.toNat ≤ 7) := by unfold SeqReady; decide

theorem witness_SeqHoldingEdge : SeqReady (seqIdle false 0 0) ∧ (seqIdle false 0 0).rst = false ∧
    (seqIdle false 0 0).run = false ∧ (seqIdle false 0 0).start = false := by unfold SeqReady; decide

theorem witness_SeqStartWhileBusyIsIgnored : SeqReady (seqBusy 3) ∧ (seqBusy 3).run = true := by
  unfold SeqReady; decide

theorem witness_SeqOperandsReadOnlyWhenAccepted :
    (SeqReady (seqBusy 0) ∧ (seqBusy 0).run = true) ∧
    (SeqReady (seqIdle false 0 0) ∧ (seqIdle false 0 0).start = false) ∧
    (SeqReady { seqIdle true 0 0 with rst := true } ∧ ({ seqIdle true 0 0 with rst := true } : State).rst = true) ∧
    (SeqReady (seqIdle true 0x57 0x83) ∧ (seqIdle true 0x57 0x83).rst = false ∧
      (seqIdle true 0x57 0x83).run = false ∧ (seqIdle true 0x57 0x83).start = true) := by unfold SeqReady; decide

/-- Eight edges without reset, one of them with an ignored `start`. -/
def eightEdges : List SeqInputs := ⟨false, true, 0xAA, 0xBB⟩ :: List.replicate 7 ⟨false, false, 0, 0⟩

theorem witness_SeqLatencyAndOutputs : SeqReady (seqIdle false 0 0) ∧ (seqIdle false 0 0).run = false ∧
    (([] : List SeqInputs).length ≤ 8 ∧ ∀ i ∈ ([] : List SeqInputs), i.rst = false) ∧
    (eightEdges.length ≤ 8 ∧ (∀ i ∈ eightEdges, i.rst = false) ∧ eightEdges.length = 8) := by
  unfold SeqReady; decide

theorem witness_SeqAgreesWithComb : SeqReady (seqIdle false 0 0) ∧ (seqIdle false 0 0).run = false ∧
    combUsed.style = .comb ∧ eightEdges.length = 8 ∧ ∀ i ∈ eightEdges, i.rst = false := by
  unfold SeqReady; decide

/-- After a reset edge: position 9 and RUN with VALID are refused, position 8 of a done operation is not. -/
theorem witness_SeqRefusedInUnreachableState :
    (({ seqBusy 8 with run := false, valid := true } : State).work.iter.toNat = 8 ∧
      seqUnreachable { seqBusy 8 with run := false, valid := true } = false) ∧
    ((seqBusy 9).style = .seq ∧ (seqBusy 9).rst = false ∧ (seqBusy 9).resetSeen = true ∧
      8 < (seqBusy 9).work.iter.toNat) ∧
    (({ seqBusy 3 with valid := true } : State).run = true ∧ ({ seqBusy 3 with valid := true } : State).valid = true) := by
  decide

theorem witness_InvariantHoldsAtReset : (seqPowerUp true).style = .seq ∧ (seqPowerUp true).rst = true := by decide

theorem witness_BlockInv_comb : BlockInv State.reset ∧ show? (step State.reset) State.style = some .comb :=
  ⟨⟨⟨by decide, 0x00, 0x00, by decide⟩, rfl, rfl⟩, by decide⟩

/-- A busy block of profile SEQ one edge before completion meets the invariant and steps. -/
theorem witness_StepKeepsInvariant :
    BlockInv (seqBusy 7) ∧ show? (step (seqBusy 7)) State.valid = some true :=
  ⟨fun _ => ⟨⟨by decide, 0x57, 0x83, by decide⟩, .inl (by decide)⟩, by decide⟩

theorem witness_InvariantStatesNeverStop :
    BlockInv (seqIdle true 0x57 0x83) ∧ ((seqIdle true 0x57 0x83).style = .seq →
      (seqIdle true 0x57 0x83).resetSeen = true ∨ (seqIdle true 0x57 0x83).rst = true) :=
  ⟨fun _ => ⟨⟨by decide, 0x00, 0x00, by decide⟩, .inr (.inr (by decide))⟩, fun _ => .inl rfl⟩

end Sys2Proof.Tests
end

section
/-! SUPPORT. What an operation reads of the state it starts in: an iteration in its parallel form, the flag OVF as a
value nobody reads before it is written, the output wire of profile COMB and the accepting edge of profile SEQ. -/

namespace Sys2Proof.Machine

/-! ### The iteration and OVF -/

/-- The steps one after another make the one parallel transfer: each reads what the transfer reads (R101). -/
theorem iterStep_eq_parallel (w : Work) : iterStep w = iterStepParallel w := by
  rw [iterStep, accumulate_eq, reduceMcand_eq]
  rfl

theorem iterStep_ovf (w : Work) : (iterStep w).ovf = w.mcand.getLsbD 7 := by
  rw [iterStep_eq_parallel]
  rfl

/-- An iteration does not read the OVF it finds: no right-hand side of the parallel form names it. -/
@[simp] theorem iterStep_setOvf (w : Work) (c : Bool) : iterStep (w.setOvf c) = iterStep w := by
  rw [iterStep_eq_parallel, iterStep_eq_parallel]
  rfl

/-- The first iteration wipes out the OVF found at the start. -/
theorem iterations_succ_setOvf (n : Nat) (w : Work) (c : Bool) :
    iterations (n + 1) (w.setOvf c) = iterations (n + 1) w := by
  rw [iterations_succ, iterations_succ, iterStep_setOvf]

@[simp] theorem initWork_ovf (a b : Byte) (w : Work) : (initWork a b w).ovf = w.ovf := rfl

@[simp] theorem finalP_setOvf (w : Work) (c : Bool) : finalP (w.setOvf c) = finalP w := rfl

/-- INIT takes from the working state before it OVF and nothing else. -/
theorem initWork_eq_setOvf (a b : Byte) (w w' : Work) : initWork a b w = (initWork a b w').setOvf w.ovf := rfl

/-- An operation reads nothing of the working state before it: INIT overwrites all but OVF, and the first iteration
overwrites OVF. -/
theorem operate_congr (a b : Byte) (w w' : Work) : operate a b w = operate a b w' := by
  rw [operate, initWork_eq_setOvf a b w w']
  exact iterations_succ_setOvf 7 (initWork a b w') w.ovf

/-! ### Profile COMB -/

@[simp] theorem present_a (a b : Nat) (s : State) : (present a b s).a = trunc8 a := rfl
@[simp] theorem present_b (a b : Nat) (s : State) : (present a b s).b = trunc8 b := rfl
@[simp] theorem combOperation_style (s : State) : (combOperation s).style = s.style := rfl
@[simp] theorem combOperation_a (s : State) : (combOperation s).a = s.a := rfl
@[simp] theorem combOperation_b (s : State) : (combOperation s).b = s.b := rfl
@[simp] theorem combOperation_work (s : State) : (combOperation s).work = operate s.a s.b s.work := rfl

theorem portP_comb {s : State} (h : s.style = .comb) : portP s = combOutput s.a s.b := by
  simp [portP, h]

/-! ### Profile SEQ -/

@[simp] theorem acceptEdge_work (s : State) : (acceptEdge s).work = initWork s.a s.b s.work := rfl
@[simp] theorem acceptEdge_run (s : State) : (acceptEdge s).run = true := rfl
@[simp] theorem acceptEdge_valid (s : State) : (acceptEdge s).valid = false := rfl

/-- A ready, idle block of profile SEQ accepts where `start` is 1 (R134). -/
theorem step_eq_acceptEdge {s : State} (hs : Safety.SeqReady s) (hrst : s.rst = false) (hrun : s.run = false)
    (hstart : s.start = true) : step s = .next (acceptEdge s) := by
  obtain ⟨hstyle, hseen, hreach⟩ := hs
  simp [step_seq hstyle, seqEdge, hrst, hseen, hreach, hrun, hstart]

/-- Two blocks with the same pair on their ports accept it with the same registers; OVF is a net and no register. -/
theorem acceptEdge_work_congr {s s' : State} (ha : s.a = s'.a) (hb : s.b = s'.b) (c : Bool) :
    (acceptEdge s).work.setOvf c = (acceptEdge s').work.setOvf c := by
  rw [acceptEdge_work, acceptEdge_work, ha, hb]
  rfl

end Sys2Proof.Machine

namespace Sys2Proof.Proofs

open Sys2Proof.Machine

/-- Settles O22: in the parallel form of an iteration no right-hand side names OVF, so an operation, which performs at
least one iteration, does not depend on the OVF at its start. -/
theorem overflowFlagWrittenBeforeRead : Obligations.OverflowFlagWrittenBeforeRead := by
  intro w a b c
  exact ⟨iterStep_ovf w, iterStep_setOvf w c, initWork_ovf a b w, finalP_setOvf w c, operate_congr a b (w.setOvf c) w⟩

/-- Settles O11: profile COMB by `operate_congr` and the output wire, which reads the ports only; profile SEQ by the
accepting edge, which overwrites every register. -/
theorem resultDependsOnOperandsOnly : Obligations.ResultDependsOnOperandsOnly := by
  constructor
  · intro a b s s' hs hs'
    refine ⟨_, _, exec_comb hs a b, exec_comb hs' a b, ?_, ?_⟩
    · rw [combOperation_work, combOperation_work]
      exact operate_congr (trunc8 a) (trunc8 b) s.work s'.work
    · rw [portP_comb (by simpa using hs), portP_comb (by simpa using hs')]
      simp
  · intro s s' hs hs' hrst hrst' hrun hrun' hstart hstart' ha hb
    exact ⟨_, _, step_eq_acceptEdge hs hrst hrun hstart, step_eq_acceptEdge hs' hrst' hrun' hstart',
      acceptEdge_work_congr ha hb false, by simp, by simp⟩

end Sys2Proof.Proofs
end

section
/-! SUPPORT. The product of profile COMB is REF (R77, R78). Both loops of REF are taken apart: the reduction is linear
and turns a shift into XTIME, so it sends the multiples `a * x^j` to the nets `MCAND_j` and the partial carry-less
products to the nets `ACC_j`. -/

namespace Sys2Proof.Machine

/-! ### The reduction of REF -/

/-- The second loop of REF (R77): the byte of a polynomial of degree at most 14 modulo `m(x)`. -/
def refReduce (t : BitVec 15) : Byte := ([14, 13, 12, 11, 10, 9, 8].foldl refSub t).setWidth 8

theorem refMul_eq_refReduce (a b : Byte) : refMul a b = refReduce (refCarryless a b) := rfl

theorem refSub_of_getLsbD_false {t : BitVec 15} {d : Nat} (h : t.getLsbD d = false) : refSub t d = t := by
  simp [refSub, h]

theorem refSub_xor (t u : BitVec 15) (d : Nat) : refSub (t ^^^ u) d = refSub t d ^^^ refSub u d := by
  have hbit : (t ^^^ u).getLsbD d = (t.getLsbD d ^^ u.getLsbD d) := BitVec.getLsbD_xor
  simp only [refSub, hbit]
  generalize Config.poly.setWidth 15 <<< (d - 8) = m
  cases t.getLsbD d <;> cases u.getLsbD d
  · simp
  · simp [BitVec.xor_assoc]
  · simp [BitVec.xor_assoc, BitVec.xor_comm m u]
  · simp [BitVec.xor_assoc, BitVec.xor_comm m]

theorem foldl_refSub_xor (ds : List Nat) (t u : BitVec 15) :
    ds.foldl refSub (t ^^^ u) = ds.foldl refSub t ^^^ ds.foldl refSub u := by
  induction ds generalizing t u with
  | nil => rfl
  | cons d ds ih => rw [List.foldl_cons, refSub_xor, ih]; rfl

theorem refReduce_xor (t u : BitVec 15) : refReduce (t ^^^ u) = refReduce t ^^^ refReduce u := by
  rw [refReduce, foldl_refSub_xor, BitVec.setWidth_xor]
  rfl

/-- A subtraction one degree higher on the shifted polynomial, where the shift moves bit `d` to a bit that exists. -/
theorem refSub_shiftLeft (t : BitVec 15) {d : Nat} (hlow : 8 ≤ d) (hhigh : d < 14) :
    refSub (t <<< 1) (d + 1) = refSub t d <<< 1 := by
  have hbit : (t <<< 1).getLsbD (d + 1) = t.getLsbD d := by simp; omega
  have hsub : d + 1 - 8 = (d - 8) + 1 := by omega
  rw [refSub, refSub, hbit, hsub, BitVec.shiftLeft_add]
  split
  · rw [BitVec.shiftLeft_xor_distrib]
  · rfl

theorem foldl_refSub_shiftLeft (ds : List Nat) (h : ∀ d ∈ ds, 8 ≤ d ∧ d < 14) (t : BitVec 15) :
    (ds.map (· + 1)).foldl refSub (t <<< 1) = ds.foldl refSub t <<< 1 := by
  induction ds generalizing t with
  | nil => rfl
  | cons d ds ih =>
    obtain ⟨⟨hlow, hhigh⟩, hds⟩ := List.forall_mem_cons.1 h
    rw [List.map_cons, List.foldl_cons, refSub_shiftLeft t hlow hhigh, ih hds]
    rfl

/-- The last subtraction, at degree 8, after a shift: on the low byte it is XTIME, for `0x1B` is the low byte of
`0x11B`. -/
theorem setWidth_refSub_shiftLeft (u : BitVec 15) : (refSub (u <<< 1) 8).setWidth 8 = xtime (u.setWidth 8) := by
  have hbit : (u <<< 1).getLsbD 8 = u.getLsbD 7 := by simp
  have htest : (u.setWidth 8).getLsbD 7 = u.getLsbD 7 := by simp
  have hshift : (u <<< 1).setWidth 8 = u.setWidth 8 <<< 1 := by ext i; simp
  rw [refSub, xtime, overflow, hbit, htest]
  split
  · rw [BitVec.setWidth_xor, hshift]
    rfl
  · exact hshift.trans BitVec.xor_zero.symm

/-- Reducing a multiple by `x` is XTIME of the reduction, as long as the shift drops no coefficient. -/
theorem refReduce_shiftLeft_one {t : BitVec 15} (h : t.getLsbD 14 = false) :
    refReduce (t <<< 1) = xtime (refReduce t) := by
  have htop : refReduce t = ([13, 12, 11, 10, 9, 8].foldl refSub t).setWidth 8 := by
    rw [refReduce, List.foldl_cons, refSub_of_getLsbD_false h]
  rw [htop, ← setWidth_refSub_shiftLeft, ← foldl_refSub_shiftLeft _ (by decide)]
  rfl

theorem getLsbD_setWidth_byte_of_le (a : Byte) {d : Nat} (h : 8 ≤ d) : (a.setWidth 15).getLsbD d = false := by
  simp [BitVec.getLsbD_of_ge a d h]

/-- A byte is reduced already. -/
theorem refReduce_setWidth (a : Byte) : refReduce (a.setWidth 15) = a := by
  have hkeep (d : Nat) (hd : 8 ≤ d) : refSub (a.setWidth 15) d = a.setWidth 15 :=
    refSub_of_getLsbD_false (getLsbD_setWidth_byte_of_le a hd)
  simp [refReduce, hkeep]

/-! ### The nets of profile COMB -/

theorem mcandNet_succ (a : Byte) (i : Nat) : mcandNet a (i + 1) = xtime (mcandNet a i) := rfl

theorem mplierNet_eq (b : Byte) (i : Nat) : mplierNet b i = b >>> i := by
  induction i with
  | zero => simp [mplierNet]
  | succ i ih => rw [mplierNet, ih, BitVec.shiftRight_add]

theorem accNet_succ (a b : Byte) (i : Nat) :
    accNet a b (i + 1) = accNet a b i ^^^ (if b.getLsbD i then mcandNet a i else 0x00) := by
  simp [accNet, mplierNet_eq]

/-- The net `MCAND_j` is `a * x^j` modulo `m(x)`, for every shift the 15 bits hold. -/
theorem refReduce_shiftLeft (a : Byte) {j : Nat} (hj : j < 8) : refReduce (a.setWidth 15 <<< j) = mcandNet a j := by
  induction j with
  | zero => simpa [mcandNet] using refReduce_setWidth a
  | succ j ih =>
    have htop : (a.setWidth 15 <<< j).getLsbD 14 = false := by
      rw [BitVec.getLsbD_shiftLeft, getLsbD_setWidth_byte_of_le a (by omega), Bool.and_false]
    rw [BitVec.shiftLeft_add, refReduce_shiftLeft_one htop, ih (by omega), mcandNet_succ]

theorem refReduce_refAdd (a b : Byte) (t : BitVec 15) {j : Nat} (hj : j < 8) :
    refReduce (refAdd a b t j) = refReduce t ^^^ (if b.getLsbD j then mcandNet a j else 0x00) := by
  unfold refAdd
  split
  · rw [refReduce_xor, refReduce_shiftLeft a hj]
  · simp

/-- The first `n` turns of REF's first loop, reduced, are the net `ACC_n`. -/
theorem refReduce_foldl_refAdd (a b : Byte) {n : Nat} (hn : n ≤ 8) :
    refReduce ((List.range n).foldl (refAdd a b) 0) = accNet a b n := by
  induction n with
  | zero => exact refReduce_setWidth 0
  | succ n ih =>
    rw [List.range_succ, List.foldl_append, List.foldl_cons, List.foldl_nil, refReduce_refAdd a b _ hn,
      ih (by omega), accNet_succ]

/-- The output wire of profile COMB carries the reference product (R78). -/
theorem combOutput_eq_refMul (a b : Byte) : combOutput a b = refMul a b :=
  (refReduce_foldl_refAdd a b (Nat.le_refl 8)).symm

/-! ### The iterations carry the nets -/

/-- The working state stands at position `n` of the operation on `a` and `b`: its registers hold the nets of stage
`n` (R104). -/
def HoldsNets (a b : Byte) (n : Nat) (w : Work) : Prop :=
  w.acc = accNet a b n ∧ w.mcand = mcandNet a n ∧ w.mplier = mplierNet b n ∧ w.iter = BitVec.ofNat 4 n

theorem initWork_holdsNets (a b : Byte) (w : Work) : HoldsNets a b 0 (initWork a b w) := ⟨rfl, rfl, rfl, rfl⟩

theorem iterStep_holdsNets (a b : Byte) (n : Nat) (w : Work) (h : HoldsNets a b n w) :
    HoldsNets a b (n + 1) (iterStep w) := by
  obtain ⟨hacc, hmcand, hmplier, hiter⟩ := h
  simp [HoldsNets, iterStep_eq_parallel, iterStepParallel, accNet, mcandNet, mplierNet, hacc, hmcand, hmplier, hiter,
    BitVec.ofNat_add]

/-- `n` iterations from INIT end at stage `n`. -/
theorem iterations_initWork_holdsNets (a b : Byte) (w : Work) (n : Nat) :
    HoldsNets a b n (iterations n (initWork a b w)) :=
  iterations_induction (HoldsNets a b) _ (initWork_holdsNets a b w) (iterStep_holdsNets a b) n

/-- GFMUL in profile COMB completes with the reference product of the low bytes, whatever the state (R78). -/
theorem delivers_gfmul {s : State} (h : s.style = .comb) (a b : Nat) :
    Safety.Delivers (.gfmul a b) s (refMul (trunc8 a) (trunc8 b)) := by
  obtain ⟨hacc, -, -, hiter⟩ := iterations_initWork_holdsNets (trunc8 a) (trunc8 b) s.work 8
  have hout : portP (combOperation (present a b s)) = combOutput (trunc8 a) (trunc8 b) := portP_comb h
  rw [← combOutput_eq_refMul]
  exact ⟨_, exec_comb h a b, h, hout, hacc, hiter⟩

/-! ### Operands wider than a byte -/

/-- The ports carry the residues modulo 256 (R58). -/
theorem present_mod (a b : Nat) (s : State) : present (a % 256) (b % 256) s = present a b s := by
  rw [present, trunc8_mod, trunc8_mod, present]

/-- GFMUL sees its operands only as the ports carry them, in either profile. -/
theorem execGfmul_mod (a b : Nat) (s : State) : execGfmul (a % 256) (b % 256) s = execGfmul a b s := by
  rw [execGfmul, present_mod, execGfmul]

end Sys2Proof.Machine

namespace Sys2Proof

theorem encode_decodeIn (w : InWord) : encode (decodeIn w) = w := by
  simp [encode, decodeIn]

theorem wellFormed_decodeIn (w : InWord) : (decodeIn w).wellFormed = true := by
  simp [Instr.wellFormed, decodeIn, inRange_toNat]

theorem decodeTableWord_toNat (w : InWord) : decodeTableWord 16 w.toNat = some (decodeIn w) := by
  rw [decodeTableWord, if_pos ⟨Nat.le_refl 16, w.isLt⟩, tableWord_toNat]

end Sys2Proof

namespace Sys2Proof.Proofs

open Sys2Proof.Machine

/-- Settles O2: the word is the pair of its two fields, which are in range, and GFMUL of any pair delivers REF. -/
theorem everyOperandWordIsGfmul : Obligations.EveryOperandWordIsGfmul := by
  intro w
  refine ⟨fieldA w, fieldB w, rfl, encode_decodeIn w, wellFormed_decodeIn w, decodeTableWord_toNat w, ?_⟩
  intro s hs
  simpa [decodeIn] using delivers_gfmul hs (fieldA w).toNat (fieldB w).toNat

/-- Settles O12: an operand acts through its port only, and the port carries its residue modulo 256. -/
theorem wideOperandsAreTruncated : Obligations.WideOperandsAreTruncated := by
  intro a b s
  refine ⟨(execGfmul_mod a b s).symm, fun hs => ?_⟩
  have h := delivers_gfmul hs a b
  rwa [← trunc8_mod a, ← trunc8_mod b] at h

end Sys2Proof.Proofs
end

section
/-! SUPPORT. The nets of profile COMB as polynomials (R77, R115): a byte is the polynomial of its bits, XOR is addition,
XTIME is multiplication by `x` modulo `m(x)`. So `MCAND_i` is `a * x^i`, `ACC_i` is `a` times the low `i` terms of `b`,
and REF is the product modulo `m(x)`. -/

namespace Sys2Proof.Safety

open Sys2Proof.Machine Polynomial

/-! ### A byte as a polynomial -/

/-- A term that a bit switches on, by its coefficients. -/
theorem coeff_ite_X_pow (c : Bool) (j i : Nat) :
    (if c then X ^ j else 0 : Polynomial (ZMod 2)).coeff i = if i = j then (if c then 1 else 0) else 0 := by
  cases c <;> simp [coeff_X_pow]

/-- The low `n` terms of the polynomial of a byte. -/
noncomputable def polyBelow (v : Byte) (n : Nat) : Polynomial (ZMod 2) :=
  ∑ i ∈ Finset.range n, if v.getLsbD i then X ^ i else 0

theorem polyBelow_succ (v : Byte) (n : Nat) :
    polyBelow v (n + 1) = polyBelow v n + (if v.getLsbD n then X ^ n else 0) :=
  Finset.sum_range_succ _ n

theorem polyBelow_eight (v : Byte) : polyBelow v 8 = poly v :=
  Finset.sum_range fun i => if v.getLsbD i then X ^ i else 0

theorem coeff_poly (v : Byte) (i : Nat) : (poly v).coeff i = if v.getLsbD i then 1 else 0 := by
  rw [← polyBelow_eight, polyBelow, finsetSum_coeff]
  simp only [coeff_ite_X_pow, Finset.sum_ite_eq, Finset.mem_range]
  split
  · rfl
  · rw [BitVec.getLsbD_of_ge v i (by omega)]
    rfl

/-- A byte is read back from the coefficients of its polynomial. -/
theorem poly_injective : Function.Injective poly := by
  intro u v h
  refine BitVec.eq_of_getLsbD_eq fun i _ => ?_
  have hcoeff : (poly u).coeff i = (poly v).coeff i := by rw [h]
  rw [coeff_poly, coeff_poly] at hcoeff
  revert hcoeff
  cases u.getLsbD i <;> cases v.getLsbD i <;> simp

theorem degree_poly_lt (v : Byte) : (poly v).degree < 8 := by
  refine (degree_lt_iff_coeff_zero _ 8).2 fun i hi => ?_
  rw [coeff_poly, BitVec.getLsbD_of_ge v i hi]
  rfl

@[simp] theorem poly_zero : poly 0#8 = 0 := by
  ext i
  simp [coeff_poly]

theorem poly_xor (u v : Byte) : poly (u ^^^ v) = poly u + poly v := by
  ext i
  rw [coeff_add, coeff_poly, coeff_poly, coeff_poly, BitVec.getLsbD_xor]
  cases u.getLsbD i <;> cases v.getLsbD i <;> simp [CharTwo.add_self_eq_zero]

/-- The left shift multiplies by `x` and drops the term `x^8`, which is to add it a second time. -/
theorem poly_shiftLeft_one (v : Byte) : poly (v <<< 1) = poly v * X + (if v.getLsbD 7 then X ^ 8 else 0) := by
  have hbit (i : Nat) : (v <<< 1).getLsbD (i + 1) = (decide (i < 7) && v.getLsbD i) := by
    simp [Nat.succ_lt_succ_iff]
  ext i
  rw [coeff_add, coeff_ite_X_pow, coeff_poly]
  cases i with
  | zero => simp
  | succ i =>
    rw [hbit, coeff_mul_X, coeff_poly]
    rcases lt_trichotomy i 7 with hi | rfl | hi
    · simp [hi, hi.ne]
    · cases v.getLsbD 7 <;> simp [CharTwo.add_self_eq_zero]
    · simp [hi.not_gt, hi.ne', BitVec.getLsbD_of_ge v i hi]

/-! ### The reduction polynomial -/

theorem mPoly_eq : mPoly = X ^ 8 + poly Config.red := by
  have hred : poly Config.red = X ^ 4 + X ^ 3 + X + 1 := by
    simp [poly, Fin.sum_univ_succ]
    ring
  rw [hred, mPoly]
  ring

theorem monic_mPoly : mPoly.Monic := by
  rw [mPoly_eq]
  exact monic_X_pow_add (degree_poly_lt _)

theorem degree_mPoly : mPoly.degree = 8 := by
  rw [mPoly_eq, degree_add_eq_left_of_degree_lt] <;> rw [degree_X_pow]
  · rfl
  · exact degree_poly_lt _

/-- A byte is reduced already. -/
theorem poly_modByMonic_mPoly (v : Byte) : poly v %ₘ mPoly = poly v :=
  (modByMonic_eq_self_iff monic_mPoly).2 (degree_mPoly ▸ degree_poly_lt v)

/-- A byte whose polynomial differs from `p` by a multiple of `m(x)` is `p` modulo `m(x)`. -/
theorem poly_eq_modByMonic_of_dvd {v : Byte} {p : Polynomial (ZMod 2)} (h : mPoly ∣ poly v - p) :
    poly v = p %ₘ mPoly := by
  rw [← poly_modByMonic_mPoly v, modByMonic_eq_of_dvd_sub monic_mPoly h]

/-- XTIME adds `m(x)` exactly when the shift leaves the byte. -/
theorem poly_xtime (v : Byte) : poly (xtime v) = poly v * X + (if v.getLsbD 7 then mPoly else 0) := by
  rw [xtime, poly_xor, poly_shiftLeft_one, overflow, mPoly_eq]
  split
  · rw [add_assoc]
  · simp

/-- XTIME is one multiplication by `x` modulo `m(x)` (R119, R121). -/
theorem poly_xtime_eq_modByMonic (v : Byte) : poly (xtime v) = (poly v * X) %ₘ mPoly := by
  refine poly_eq_modByMonic_of_dvd ?_
  rw [poly_xtime, add_sub_cancel_left]
  split
  · exact dvd_refl mPoly
  · exact dvd_zero mPoly

/-! ### The nets and REF -/

/-- A factor may be reduced before the product is. -/
theorem modByMonic_mul_modByMonic (p q : Polynomial (ZMod 2)) : (p %ₘ mPoly * q) %ₘ mPoly = (p * q) %ₘ mPoly :=
  modByMonic_eq_of_dvd_sub monic_mPoly <| by
    rw [← sub_mul]
    exact (dvd_modByMonic_sub p mPoly).mul_right q

/-- The net `MCAND_i` is `a * x^i` modulo `m(x)` (R115). -/
theorem poly_mcandNet (a : Byte) (i : Nat) : poly (mcandNet a i) = (poly a * X ^ i) %ₘ mPoly := by
  induction i with
  | zero => rw [pow_zero, mul_one, poly_modByMonic_mPoly, mcandNet]
  | succ i ih => rw [mcandNet_succ, poly_xtime_eq_modByMonic, ih, modByMonic_mul_modByMonic, mul_assoc, ← pow_succ]

/-- The net `ACC_i` is `a` times the low `i` terms of `b`, modulo `m(x)`. -/
theorem poly_accNet (a b : Byte) (i : Nat) : poly (accNet a b i) = (poly a * polyBelow b i) %ₘ mPoly := by
  induction i with
  | zero => simp [accNet, polyBelow]
  | succ i ih =>
    rw [accNet_succ, poly_xor, ih, polyBelow_succ, mul_add, add_modByMonic]
    split
    · rw [poly_mcandNet]
    · simp

/-- REF is the product of the polynomials modulo `m(x)` (R77). -/
theorem poly_refMul (a b : Byte) : poly (refMul a b) = (poly a * poly b) %ₘ mPoly := by
  rw [← combOutput_eq_refMul, combOutput, poly_accNet, polyBelow_eight]

end Sys2Proof.Safety

namespace Sys2Proof.Machine

/-! ### Laws of REF -/

/-- The product of polynomials commutes, and a byte is determined by its polynomial (R81). -/
theorem refMul_comm (a b : Byte) : refMul a b = refMul b a :=
  Safety.poly_injective (by rw [Safety.poly_refMul, Safety.poly_refMul, mul_comm])

/-- With the multiplier 0x01 the first iteration adds `x`, and no other adds anything (R79). -/
theorem accNet_one_right (x : Byte) (i : Nat) : accNet x 1#8 (i + 1) = x := by
  induction i with
  | zero =>
    have hbit : (1#8).getLsbD 0 = true := rfl
    rw [accNet_succ, hbit]
    exact BitVec.zero_xor
  | succ i ih =>
    have hbit : (1#8).getLsbD (i + 1) = false := by simp
    rw [accNet_succ, ih, hbit]
    exact BitVec.xor_zero

theorem natCast_one_shiftLeft (i : Nat) : ((1 <<< i : Nat) : Byte) = BitVec.twoPow 8 i :=
  BitVec.eq_of_toNat_eq (by simp [Nat.one_shiftLeft])

/-- With the multiplicand 0x01 no bit leaves the byte before the eighth shift (R79). -/
theorem mcandNet_one {i : Nat} (hi : i < 8) : mcandNet 1#8 i = BitVec.twoPow 8 i := by
  induction i with
  | zero => rfl
  | succ i ih =>
    have htop : overflow (BitVec.twoPow 8 i) = false := by simp [overflow]; omega
    rw [mcandNet_succ, ih (by omega), xtime, htop, BitVec.twoPow, BitVec.twoPow, BitVec.shiftLeft_add]
    exact BitVec.xor_zero

theorem refMul_one_right (x : Byte) : refMul x 1#8 = x := by
  rw [← combOutput_eq_refMul, combOutput, accNet_one_right]

theorem refMul_one_left (x : Byte) : refMul 1#8 x = x := by
  rw [refMul_comm, refMul_one_right]

@[simp] theorem mplierNet_zero (i : Nat) : mplierNet 0#8 i = 0#8 := by
  simp [mplierNet_eq]

@[simp] theorem accNet_zero_right (x : Byte) (i : Nat) : accNet x 0#8 i = 0#8 := by
  induction i with
  | zero => rfl
  | succ i ih => simp [accNet_succ, ih]

@[simp] theorem mcandNet_zero (i : Nat) : mcandNet 0#8 i = 0#8 := by
  induction i with
  | zero => rfl
  | succ i ih => rw [mcandNet_succ, ih]; rfl

theorem refMul_zero_right (x : Byte) : refMul x 0#8 = 0#8 := by
  rw [← combOutput_eq_refMul, combOutput, accNet_zero_right]

theorem refMul_zero_left (x : Byte) : refMul 0#8 x = 0#8 := by
  rw [refMul_comm, refMul_zero_right]

/-- What GFMUL delivers, by a value of REF. -/
theorem delivers_of_refMul_eq {s : State} (hs : s.style = .comb) {a b : Nat} {v : Byte}
    (h : refMul (trunc8 a) (trunc8 b) = v) : Safety.Delivers (.gfmul a b) s v :=
  h ▸ delivers_gfmul hs a b

end Sys2Proof.Machine

namespace Sys2Proof.Proofs

open Sys2Proof.Machine Sys2Proof.Safety

/-- Settles O7: the eight iterations carry the stage nets, and `ACC_8` is REF. -/
theorem gfmulDeliversReferenceProduct : Obligations.GfmulDeliversReferenceProduct :=
  fun a b _ hs => delivers_gfmul hs a b

/-- Settles O8: REF is the product modulo `m(x)`, and GFMUL delivers REF. -/
theorem gfmulIsProductModuloPolynomial : Obligations.GfmulIsProductModuloPolynomial :=
  ⟨poly_refMul, fun a b _ hs => ⟨_, delivers_gfmul hs a b, poly_refMul _ _⟩⟩

/-- Settles O34: 0x01 as multiplier adds `x` once, in iteration 0; as multiplicand it is shifted through the byte, and
its one bit is bit 7 in iteration 7. -/
theorem identityLaw : Obligations.IdentityLaw := by
  refine ⟨fun x s hs => ⟨?_, ?_⟩, fun x i hi => ⟨accNet_one_right x i, ?_⟩, fun i hi => ?_⟩
  · exact delivers_of_refMul_eq hs (by rw [trunc8_toNat]; exact refMul_one_right x)
  · exact delivers_of_refMul_eq hs (by rw [trunc8_toNat]; exact refMul_one_left x)
  · rw [natCast_one_shiftLeft]
    exact mcandNet_one hi
  · have hbit : ovfNet 1#8 i = (BitVec.twoPow 8 i).getLsbD 7 := congrArg (·.getLsbD 7) (mcandNet_one hi)
    simp [hbit, eq_comm]

/-- Settles O35: 0x00 as multiplier never adds, and as multiplicand it stays 0x00 under XTIME. -/
theorem absorptionLaw : Obligations.AbsorptionLaw := by
  refine ⟨fun x s hs => ⟨?_, ?_⟩, fun x i _ => ⟨accNet_zero_right x i, mplierNet_zero i⟩,
    fun i _ => ⟨mcandNet_zero i, ?_⟩⟩
  · exact delivers_of_refMul_eq hs (by rw [trunc8_toNat]; exact refMul_zero_right x)
  · exact delivers_of_refMul_eq hs (by rw [trunc8_toNat]; exact refMul_zero_left x)
  · exact congrArg (·.getLsbD 7) (mcandNet_zero i)

/-- Settles O36: both orders deliver REF, which commutes; the nets after one iteration on 0x02 and 0x87 differ. -/
theorem commutativityLaw : Obligations.CommutativityLaw := by
  refine ⟨fun a b s hs => ?_, fun s hs => ?_, by decide⟩
  · exact ⟨_, delivers_gfmul hs a b, delivers_of_refMul_eq hs (refMul_comm _ _)⟩
  · exact ⟨delivers_of_refMul_eq hs (by decide), delivers_of_refMul_eq hs (by decide)⟩

end Sys2Proof.Proofs
end

section
/-! SUPPORT. The iteration (R95 to R104): where it starts, what its steps write, that it is repeated exactly eight times
with the index as its count, and that the eight stages of profile COMB carry what the iterations compute. -/

namespace Sys2Proof.Machine

/-! ### The steps -/

/-- The form without a guard (R96, R118): a byte masked with eight copies of the guard. -/
theorem and_fill (v : Byte) (c : Bool) : v &&& BitVec.fill 8 c = if c then v else 0#8 := by
  cases c
  · simp
  · exact BitVec.and_allOnes

/-- A left shift by one is doubling modulo 256 (R117). -/
theorem ofNat_two_mul_toNat (v : Byte) : BitVec.ofNat 8 (2 * v.toNat) = v <<< 1 := by
  refine BitVec.eq_of_toNat_eq ?_
  rw [BitVec.toNat_ofNat, BitVec.toNat_shiftLeft, Nat.shiftLeft_eq, Nat.mul_comm, pow_one]

/-- XOR with a guarded value is a guarded XOR (R96, R101, R118). -/
theorem xor_ite_zero (v u : Byte) (c : Bool) : (v ^^^ if c then u else 0x00) = if c then v ^^^ u else v := by
  cases c
  · exact BitVec.xor_zero
  · rfl

/-- FINAL masks an 8-bit accumulator with eight ones (R103). -/
theorem finalP_eq_acc (w : Work) : finalP w = w.acc := BitVec.and_allOnes

/-! ### The index -/

/-- The index counts the iterations, as long as 4 bits hold the count (R99). -/
theorem iterations_initWork_iter_toNat (a b : Byte) (w : Work) {k : Nat} (hk : k ≤ 8) :
    (iterations k (initWork a b w)).iter.toNat = k := by
  obtain ⟨-, -, -, hiter⟩ := iterations_initWork_holdsNets a b w k
  rw [hiter, BitVec.toNat_ofNat]
  exact Nat.mod_eq_of_lt (by omega)

/-- OVF after an iteration is the net `OVF_i` of its stage (R104). -/
theorem iterations_succ_initWork_ovf (a b : Byte) (w : Work) (i : Nat) :
    (iterations (i + 1) (initWork a b w)).ovf = ovfNet a i := by
  obtain ⟨-, hmcand, -, -⟩ := iterations_initWork_holdsNets a b w i
  rw [iterations_succ_last, iterStep_ovf, hmcand, ovfNet]

/-! ### The iterating edge of profile SEQ -/

@[simp] theorem iterateEdge_work (s : State) : (iterateEdge s).work = iterStepParallel s.work := by
  rw [iterateEdge_eq, State.setControl_work, State.setWork_work]

/-- A ready, busy block of profile SEQ iterates, whatever its other inputs (R135). -/
theorem step_eq_iterateEdge {s : State} (hs : Safety.SeqReady s) (hrst : s.rst = false) (hrun : s.run = true) :
    step s = .next (iterateEdge s) := by
  obtain ⟨hstyle, hseen, hreach⟩ := hs
  simp [step_seq hstyle, seqEdge, hrst, hseen, hreach, hrun]

theorem iterateEdge_iter_toNat {s : State} (h : s.work.iter.toNat ≤ 7) :
    (iterateEdge s).work.iter.toNat = s.work.iter.toNat + 1 := by
  have hiter : (iterateEdge s).work.iter = s.work.iter + 1 := by
    rw [iterateEdge_work]
    rfl
  rw [hiter, BitVec.toNat_add]
  exact Nat.mod_eq_of_lt (Nat.lt_of_le_of_lt (Nat.succ_le_succ h) (by decide))

end Sys2Proof.Machine

namespace Sys2Proof.Proofs

open Sys2Proof.Machine

/-- Settles O16: the index is the position of the nets the registers hold, GFMUL stops at position 8, and an iterating
edge adds one without leaving the 4 bits. -/
theorem exactlyEightIterations : Obligations.ExactlyEightIterations := by
  refine ⟨fun a b w k hk => iterations_initWork_iter_toNat a b w hk, fun a b s hs => ?_, fun s hs hrst hrun hle => ?_⟩
  · obtain ⟨t, hexec, -, -, -, hiter⟩ := delivers_gfmul hs a b
    exact ⟨t, hexec, hiter⟩
  · exact ⟨_, step_eq_iterateEdge hs hrst hrun, iterateEdge_iter_toNat hle⟩

/-- Settles O25: the mask keeps all eight bits of ACC, and GFMUL delivers the same value on `p` and in ACC. -/
theorem finalMaskIsIdentity : Obligations.FinalMaskIsIdentity := by
  refine ⟨fun w => ⟨finalP_eq_acc w, ?_⟩, fun a b s hs => ?_⟩
  · have hlt : w.acc.toNat < 256 := w.acc.isLt
    rw [finalP_eq_acc, Nat.mod_eq_of_lt hlt, BitVec.ofNat_toNat, BitVec.setWidth_eq]
  · obtain ⟨t, hexec, -, hport, hacc, hiter⟩ := delivers_gfmul hs a b
    exact ⟨t, hexec, hiter, by rw [finalP_eq_acc, hport, hacc]⟩

/-- Settles O26: the nets are defined by the equations of the parallel form, bit 0 of `MPLIER_i` being bit `i` of `b`,
and every iteration keeps the registers on the nets. -/
theorem stageNetsCarryIterationValues : Obligations.StageNetsCarryIterationValues := by
  refine ⟨fun a b => ⟨rfl, rfl, rfl⟩, fun a b i _ => ⟨rfl, accNet_succ a b i, mcandNet_succ a i, rfl⟩,
    fun a b w i _ => ?_, fun a b w i _ => iterations_succ_initWork_ovf a b w i, fun s hs => portP_comb hs⟩
  obtain ⟨hacc, hmcand, hmplier, -⟩ := iterations_initWork_holdsNets a b w i
  exact ⟨hacc, hmcand, hmplier⟩

/-- Settles O10: INIT writes all registers but OVF, the operands as their residues modulo 256, and the operation of
profile COMB is eight iterations from there. -/
theorem operationStartsFromInit : Obligations.OperationStartsFromInit := by
  refine ⟨fun a b w => ⟨rfl, ?_, ?_, rfl, initWork_ovf _ _ w⟩, fun a b s hs => ⟨_, exec_comb hs a b, ?_⟩⟩
  · exact BitVec.toNat_ofNat a 8
  · exact BitVec.toNat_ofNat b 8
  · rw [combOperation_work, operate, initWork_eq]
    rfl

/-- Settles O17: the guard selects between the XOR and no write, and the mask of the unguarded form is the guarded
value. -/
theorem accumulateStep : Obligations.AccumulateStep := by
  intro w
  refine ⟨fun hbit => ?_, fun hbit => ?_, ?_⟩
  · rw [accumulate, if_pos hbit]
    rfl
  · exact if_neg (Bool.eq_false_iff.1 hbit)
  · rw [and_fill, accumulate_eq]
    rfl

/-- Settles O21: a right shift moves every bit down by one, and there is no bit 8. -/
theorem shiftMultiplierStep : Obligations.ShiftMultiplierStep := by
  intro w
  have hbit (k : Nat) : (shiftMplier w).mplier.getLsbD k = w.mplier.getLsbD (k + 1) := by
    rw [shiftMplier, Work.setMplier_mplier, BitVec.getLsbD_ushiftRight, Nat.add_comm]
  refine ⟨rfl, ?_, fun k _ => hbit k⟩
  rw [hbit]
  exact BitVec.getLsbD_of_ge w.mplier 8 (Nat.le_refl 8)

/-- Settles O23: the steps in order make the parallel transfer, whose two masked XORs are the guarded ones and whose
shift is the doubling. -/
theorem iterationFollowsSourceOrder : Obligations.IterationFollowsSourceOrder := by
  intro w
  rw [iterStep_eq_parallel, iterStepParallel, xor_ite_zero, xor_ite_zero, ← ofNat_two_mul_toNat]
  rfl

end Sys2Proof.Proofs
end

section
/-! SUPPORT. The reduction logic (R115 to R119): what steps 2 to 4 write, one by one and together. -/

namespace Sys2Proof.Machine

/-- Masking with 0x80 keeps bit 7 alone (R116). -/
theorem and_msb (v : Byte) : v &&& Config.msb = if v.getLsbD 7 then Config.msb else 0#8 :=
  BitVec.and_twoPow v 7

/-- The two forms of the overflow test (R116). -/
theorem overflow_eq_decide_and_msb (v : Byte) : overflow v = decide (v &&& Config.msb ≠ 0#8) := by
  rw [and_msb, overflow]
  cases v.getLsbD 7 <;> rfl

/-- A left shift by one moves every bit up by one (R117). -/
theorem getLsbD_shiftLeft_one_succ (v : Byte) {k : Nat} (hk : k < 7) :
    (v <<< 1).getLsbD (k + 1) = v.getLsbD k := by
  rw [BitVec.getLsbD_shiftLeft, Nat.add_sub_cancel, decide_eq_true (Nat.succ_lt_succ hk)]
  rfl

/-- A left shift by one leaves bit 0 empty (R117). -/
theorem getLsbD_shiftLeft_one_zero (v : Byte) : (v <<< 1).getLsbD 0 = false := by
  simp

/-- Step 3 frees bit 0 and step 4 XORs an odd constant, so bit 0 shows whether step 4 reduced (R118). -/
theorem reduceMcand_shiftMcand_getLsbD_zero (w : Work) :
    (reduceMcand (shiftMcand w)).mcand.getLsbD 0 = w.ovf := by
  rw [reduceMcand_eq, shiftMcand, Work.setMcand_mcand, Work.setMcand_mcand, Work.setMcand_ovf, BitVec.getLsbD_xor,
    getLsbD_shiftLeft_one_zero, Bool.false_xor]
  cases w.ovf <;> rfl

/-- Steps 2 to 4 in order: OVF takes bit 7 of MCAND, and MCAND becomes its XTIME (R115, R119). -/
theorem reduceMcand_shiftMcand_captureOvf (w : Work) :
    reduceMcand (shiftMcand (captureOvf w)) = { w with mcand := xtime w.mcand, ovf := overflow w.mcand } := by
  rw [reduceMcand_eq]
  rfl

end Sys2Proof.Machine

namespace Sys2Proof.Proofs

open Sys2Proof.Machine Sys2Proof.Safety

/-- Settles O29: steps 2 to 4 replace MCAND by its XTIME, so after `i` iterations from INIT MCAND holds the net
`MCAND_i`, whose polynomial is `poly(a)·x^i mod m(x)`. -/
theorem multiplicandTracksPowersOfX : Obligations.MultiplicandTracksPowersOfX := by
  refine ⟨fun w => ⟨rfl, ?_⟩, fun a b w i => ?_⟩
  · rw [reduceMcand_shiftMcand_captureOvf]
    rfl
  · obtain ⟨-, hmcand, -, -⟩ := iterations_initWork_holdsNets a b w i
    rw [hmcand, poly_mcandNet]

/-- Settles O18: step 2 is one write of OVF, and 0x80 masks out the bit it captures. -/
theorem captureOverflowStep : Obligations.CaptureOverflowStep :=
  fun w => ⟨rfl, overflow_eq_decide_and_msb w.mcand⟩

/-- Settles O19: step 3 is one write of MCAND, with its left shift by one. -/
theorem shiftMultiplicandStep : Obligations.ShiftMultiplicandStep := by
  intro w
  refine ⟨rfl, ?_, getLsbD_shiftLeft_one_zero w.mcand, fun k hk => getLsbD_shiftLeft_one_succ w.mcand hk⟩
  rw [shiftMcand, Work.setMcand_mcand, ← ofNat_two_mul_toNat]
  exact BitVec.toNat_ofNat (2 * w.mcand.toNat) 8

/-- Settles O20: the guard selects between the XOR and no write, the mask of the unguarded form is the guarded value,
and only the XOR with the odd 0x1B can set the bit 0 that step 3 freed. -/
theorem reduceStep : Obligations.ReduceStep := by
  intro w
  refine ⟨fun hovf => ?_, fun hovf => ?_, ?_, reduceMcand_shiftMcand_getLsbD_zero w⟩
  · rw [reduceMcand, if_pos hovf]
    rfl
  · exact if_neg (Bool.eq_false_iff.1 hovf)
  · rw [and_fill, reduceMcand_eq]
    rfl

end Sys2Proof.Proofs
end

section
/-! SUPPORT. Profile SEQ edge by edge (R132 to R142): what each kind of edge answers, that only the accepting edge looks
at the operand ports, and where an accepted operation stands after each edge of its run. -/

namespace Sys2Proof.Machine

open Sys2Proof.Safety

/-! ### What each kind of edge answers -/

/-- A reset edge needs nothing but the profile (R133). -/
theorem step_eq_resetEdge {s : State} (hstyle : s.style = .seq) (hrst : s.rst = true) :
    step s = .next (resetEdge s) := by
  rw [step_seq hstyle, seqEdge, if_pos hrst]

/-- A ready, idle block of profile SEQ without a request holds (R142). -/
theorem step_eq_self {s : State} (hs : SeqReady s) (hrst : s.rst = false) (hrun : s.run = false)
    (hstart : s.start = false) : step s = .next s := by
  obtain ⟨hstyle, hseen, hreach⟩ := hs
  simp [step_seq hstyle, seqEdge, hrst, hseen, hreach, hrun, hstart]

/-- In the states an edge has a meaning in, a busy block has no valid result (U9). -/
theorem valid_eq_false_of_seqReady {s : State} (hs : SeqReady s) (hrun : s.run = true) : s.valid = false := by
  obtain ⟨-, -, hreach⟩ := hs
  rw [seqUnreachable, hrun, Bool.true_and] at hreach
  exact (Bool.or_eq_false_iff.1 hreach).2

/-! ### The iterating edge -/

theorem iterateEdge_run (s : State) : (iterateEdge s).run = if s.work.iter = 7 then false else s.run := by
  rw [iterateEdge_eq, State.setControl_run]

theorem iterateEdge_valid (s : State) : (iterateEdge s).valid = if s.work.iter = 7 then true else s.valid := by
  rw [iterateEdge_eq, State.setControl_valid]

/-- An iterating edge writes the working state, RUN and VALID (R135, R136). -/
theorem iterateEdge_frame (s : State) :
    iterateEdge s =
      { s with work := (iterateEdge s).work, run := (iterateEdge s).run, valid := (iterateEdge s).valid } := by
  rw [iterateEdge_eq]
  rfl

/-- An iterating edge takes the registers from the nets of one stage to those of the next (R104, R135). -/
theorem iterateEdge_holdsNets {a b : Byte} {n : Nat} {s : State} (h : HoldsNets a b n s.work) :
    HoldsNets a b (n + 1) (iterateEdge s).work := by
  rw [iterateEdge_work, ← iterStep_eq_parallel]
  exact iterStep_holdsNets a b n s.work h

/-- An iterating edge does not look at the operand ports (R140). -/
theorem iterateEdge_setPorts (s : State) (a b : Byte) :
    iterateEdge (s.setPorts a b) = (iterateEdge s).setPorts a b := by
  rw [iterateEdge_eq, iterateEdge_eq]
  rfl

/-- An iterating edge does not look at `start` (R139). -/
theorem iterateEdge_setInputs (s : State) (rst start : Bool) :
    iterateEdge (s.setInputs rst start) = (iterateEdge s).setInputs rst start := by
  rw [iterateEdge_eq, iterateEdge_eq]
  rfl

/-! ### Edges with the inputs they sample -/

@[simp] theorem driveSeq_style (i : SeqInputs) (s : State) : (driveSeq i s).style = s.style := rfl
@[simp] theorem driveSeq_rst (i : SeqInputs) (s : State) : (driveSeq i s).rst = i.rst := rfl
@[simp] theorem driveSeq_work (i : SeqInputs) (s : State) : (driveSeq i s).work = s.work := rfl
@[simp] theorem driveSeq_run (i : SeqInputs) (s : State) : (driveSeq i s).run = s.run := rfl
@[simp] theorem driveSeq_valid (i : SeqInputs) (s : State) : (driveSeq i s).valid = s.valid := rfl
@[simp] theorem driveSeq_resetSeen (i : SeqInputs) (s : State) : (driveSeq i s).resetSeen = s.resetSeen := rfl

/-- Whether an edge has a meaning in a state does not depend on the inputs. -/
theorem seqReady_driveSeq {s : State} (hs : SeqReady s) (i : SeqInputs) : SeqReady (driveSeq i s) := hs

theorem iterateEdge_driveSeq (i : SeqInputs) (s : State) :
    iterateEdge (driveSeq i s) = driveSeq i (iterateEdge s) := by
  rw [driveSeq, iterateEdge_setInputs, iterateEdge_setPorts, driveSeq]

/-- While the block is busy every edge without reset is the same iterating edge, beside the inputs it samples. -/
theorem edge_eq_iterateEdge {s : State} (hs : SeqReady s) (hrun : s.run = true) {i : SeqInputs}
    (hrst : i.rst = false) : edge i s = .next (driveSeq i (iterateEdge s)) := by
  rw [edge, step_eq_iterateEdge (seqReady_driveSeq hs i) hrst hrun, iterateEdge_driveSeq]

/-! ### The run of an accepted operation -/

/-- The block of profile SEQ stands at position `n` of the operation it accepted with the pair `a`, `b`: the registers
hold the nets of stage `n` (R104), it is busy before position 8 and done there (R136, R138). -/
structure SeqRunsAt (a b : Byte) (n : Nat) (s : State) : Prop where
  style : s.style = .seq
  resetSeen : s.resetSeen = true
  nets : HoldsNets a b n s.work
  run : s.run = decide (n < 8)
  valid : s.valid = decide (n = 8)

theorem HoldsNets.iter_toNat {a b : Byte} {n : Nat} {w : Work} (h : HoldsNets a b n w) (hn : n ≤ 8) :
    w.iter.toNat = n := by
  obtain ⟨-, -, -, hiter⟩ := h
  rw [hiter, BitVec.toNat_ofNat]
  exact Nat.mod_eq_of_lt (by omega)

/-- The position a register of 4 bits shows is 7 at stage 7 only. -/
theorem HoldsNets.iter_eq_seven_iff {a b : Byte} {n : Nat} {w : Work} (h : HoldsNets a b n w) (hn : n ≤ 8) :
    w.iter = 7 ↔ n = 7 := by
  rw [← BitVec.toNat_inj, h.iter_toNat hn]
  rfl

/-- An edge has a meaning at every position of a run. -/
theorem SeqRunsAt.seqReady {a b : Byte} {n : Nat} {s : State} (h : SeqRunsAt a b n s) (hn : n ≤ 8) : SeqReady s := by
  refine ⟨h.style, h.resetSeen, ?_⟩
  rw [seqUnreachable, h.nets.iter_toNat hn, h.run, h.valid, ← Bool.decide_and, ← Bool.decide_or]
  exact decide_eq_false (by omega)

/-- The accepting edge stands at position 0, whatever the last operation left (R134). -/
theorem edge_accept_seqRunsAt {s : State} (hs : SeqReady s) (hrun : s.run = false) (a b : Byte) :
    ∃ t, edge ⟨false, true, a, b⟩ s = .next t ∧ SeqRunsAt a b 0 t := by
  refine ⟨_, step_eq_acceptEdge (seqReady_driveSeq hs _) rfl hrun rfl, ?_⟩
  obtain ⟨hstyle, hseen, -⟩ := hs
  exact ⟨hstyle, hseen, initWork_holdsNets a b s.work, rfl, rfl⟩

/-- An edge without reset moves a busy block to the next position, whatever its other inputs (R135, R136, R139). -/
theorem SeqRunsAt.edge_next {a b : Byte} {n : Nat} {s : State} (h : SeqRunsAt a b n s) (hn : n < 8) {i : SeqInputs}
    (hrst : i.rst = false) : ∃ t, edge i s = .next t ∧ SeqRunsAt a b (n + 1) t := by
  have hbusy : s.run = true := h.run.trans (decide_eq_true hn)
  have hseven : s.work.iter = 7 ↔ n = 7 := h.nets.iter_eq_seven_iff hn.le
  refine ⟨_, edge_eq_iterateEdge (h.seqReady hn.le) hbusy hrst, ?_, ?_, iterateEdge_holdsNets h.nets, ?_, ?_⟩
  · rw [driveSeq_style, iterateEdge_frame]
    exact h.style
  · rw [driveSeq_resetSeen, iterateEdge_frame]
    exact h.resetSeen
  · rw [driveSeq_run, iterateEdge_run, h.run, if_congr hseven rfl rfl]
    split <;> simp <;> omega
  · rw [driveSeq_valid, iterateEdge_valid, h.valid, if_congr hseven rfl rfl]
    split <;> simp <;> omega

/-- Edges without reset, as many as there are positions left, move the block on by their number. -/
theorem SeqRunsAt.edges_next {a b : Byte} {n : Nat} {s : State} (h : SeqRunsAt a b n s) {is : List SeqInputs}
    (hlen : n + is.length ≤ 8) (hrst : ∀ i ∈ is, i.rst = false) :
    ∃ t, edges is s = .next t ∧ SeqRunsAt a b (n + is.length) t := by
  induction is generalizing n s with
  | nil => exact ⟨s, edges_nil s, h⟩
  | cons i is ih =>
    obtain ⟨hi, his⟩ := List.forall_mem_cons.1 hrst
    have hshift : n + (i :: is).length = n + 1 + is.length := by rw [List.length_cons]; omega
    rw [hshift] at hlen ⊢
    obtain ⟨u, hedge, hu⟩ := h.edge_next (by omega) hi
    rw [edges_cons_next hedge]
    exact ih hu hlen his

/-- The accepting edge and at most eight further edges without reset. -/
theorem edges_accept_seqRunsAt {s : State} (hs : SeqReady s) (hrun : s.run = false) (a b : Byte) {is : List SeqInputs}
    (hlen : is.length ≤ 8) (hrst : ∀ i ∈ is, i.rst = false) :
    ∃ t, edges (⟨false, true, a, b⟩ :: is) s = .next t ∧ SeqRunsAt a b is.length t := by
  obtain ⟨u, hedge, hu⟩ := edge_accept_seqRunsAt hs hrun a b
  rw [edges_cons_next hedge]
  simpa using hu.edges_next (by simpa using hlen) hrst

/-! ### The output ports -/

theorem portP_seq {s : State} (h : s.style = .seq) : portP s = s.work.acc := by
  rw [portP, h]

theorem portBusy_seq {s : State} (h : s.style = .seq) : portBusy s = some s.run := by
  rw [portBusy, h]

theorem portDone_seq {s : State} (h : s.style = .seq) : portDone s = some s.valid := by
  rw [portDone, h]

/-- At the end of a run `p` shows the reference product (R136, R137). -/
theorem SeqRunsAt.portP_eq_refMul {a b : Byte} {s : State} (h : SeqRunsAt a b 8 s) : portP s = refMul a b := by
  obtain ⟨hacc, -, -, -⟩ := h.nets
  rw [portP_seq h.style, hacc]
  exact combOutput_eq_refMul a b

end Sys2Proof.Machine

namespace Sys2Proof.Proofs

open Sys2Proof.Machine

/-- Settles O46: the edge is `iterateEdge`, which carries the parallel form and commutes with driving the inputs. -/
theorem seqIteratingEdge : Obligations.SeqIteratingEdge := by
  intro s hs hrst hrun
  refine ⟨_, step_eq_iterateEdge hs hrst hrun, iterateEdge_frame s, ?_⟩
  rw [iterateEdge_work]
  exact ⟨rfl, rfl, rfl, rfl, fun st a b => edge_eq_iterateEdge (i := ⟨false, st, a, b⟩) hs hrun rfl⟩

/-- Settles O47: RUN and VALID are written exactly at `CNT` 7, where the edge takes the registers from the nets at 7 to
those at 8, `ACC_8` being the product. -/
theorem seqCompletion : Obligations.SeqCompletion := by
  intro s hs hrst hrun
  refine ⟨_, step_eq_iterateEdge hs hrst hrun, fun hseven => ⟨?_, ?_, ?_, ?_⟩, fun hle => ?_, fun hle => ?_⟩
  · rw [iterateEdge_run, if_pos hseven]
  · rw [iterateEdge_valid, if_pos hseven]
  · rw [iterateEdge_work, iterStepParallel, hseven]
    rfl
  · intro a b hacc hmcand hmplier
    obtain ⟨hacc', -, -, -⟩ := iterateEdge_holdsNets (n := 7) ⟨hacc, hmcand, hmplier, hseven⟩
    exact hacc'.trans (combOutput_eq_refMul a b)
  · have hne : s.work.iter ≠ 7 := by
      intro hseven
      rw [hseven] at hle
      exact absurd hle (by decide)
    rw [iterateEdge_run, iterateEdge_valid, if_neg hne, if_neg hne]
    exact ⟨hrun, valid_eq_false_of_seqReady hs hrun⟩
  · rw [iterateEdge_iter_toNat hle]
    exact Nat.succ_le_succ hle

/-- Settles O49: both edges are the same iterating edge, and differ in the inputs they leave on the ports. -/
theorem seqStartWhileBusyIsIgnored : Obligations.SeqStartWhileBusyIsIgnored :=
  fun _ _ _ hs hrun => ⟨_, edge_eq_iterateEdge hs hrun rfl, edge_eq_iterateEdge hs hrun rfl⟩

/-- Settles O50: the reset, the iterating and the holding edge each commute with driving the operand ports; the
accepting edge is INIT with the pair on them. -/
theorem seqOperandsReadOnlyWhenAccepted : Obligations.SeqOperandsReadOnlyWhenAccepted := by
  intro s hs
  refine ⟨fun hedge => ?_, fun hrst hrun hstart => ⟨_, step_eq_acceptEdge hs hrst hrun hstart, rfl, rfl⟩⟩
  have hstyle : s.style = .seq := hs.1
  cases hrst : s.rst with
  | true => exact ⟨_, step_eq_resetEdge hstyle hrst, fun a b => step_eq_resetEdge (s := s.setPorts a b) hstyle hrst⟩
  | false =>
    cases hrun : s.run with
    | true =>
      refine ⟨_, step_eq_iterateEdge hs hrst hrun, fun a b => ?_⟩
      rw [← iterateEdge_setPorts]
      exact step_eq_iterateEdge (s := s.setPorts a b) hs hrst hrun
    | false =>
      have hstart : s.start = false := by simpa [hrst, hrun] using hedge
      exact ⟨_, step_eq_self hs hrst hrun hstart,
        fun a b => step_eq_self (s := s.setPorts a b) hs hrst hrun hstart⟩

/-- Settles O51: the accepting edge stands at position 0 of the run and every further edge moves it on by one, so after
`k` of them the registers hold the nets of stage `k`. -/
theorem seqLatencyAndOutputs : Obligations.SeqLatencyAndOutputs := by
  intro s a b is hs hrun hlen hrst
  obtain ⟨t, hedges, ht⟩ := edges_accept_seqRunsAt hs hrun a b hlen hrst
  obtain ⟨hacc, hmcand, hmplier, -⟩ := ht.nets
  refine ⟨t, hedges, ht.nets.iter_toNat hlen, portP_seq ht.style, (portP_seq ht.style).trans hacc, hmcand, hmplier,
    ?_, ?_, fun hlast => ?_⟩
  · rw [portBusy_seq ht.style, ht.run]
  · rw [portDone_seq ht.style, ht.valid]
  · rw [hlast] at ht
    exact ht.portP_eq_refMul

/-- Settles O45: the edge is `acceptEdge`, which is INIT with the pair on the ports and leaves OVF as it was. -/
theorem seqAcceptingEdge : Obligations.SeqAcceptingEdge :=
  fun _ hs hrst hrun hstart => step_eq_acceptEdge hs hrst hrun hstart

/-- Settles O48: a ready block that is neither reset, busy nor asked to start answers its own state. -/
theorem seqHoldingEdge : Obligations.SeqHoldingEdge :=
  fun _ hs hrst hrun hstart => step_eq_self hs hrst hrun hstart

end Sys2Proof.Proofs
end

section
/-! SUPPORT. Profile COMB between operations (R165, R171): an operation finds neither what the operation before it left
in the working state nor the inputs that only profile SEQ has. -/

namespace Sys2Proof.Machine

/-- An operation of profile COMB does not read the working state it finds. -/
theorem combOperation_setWork (s : State) (w : Work) : combOperation (s.setWork w) = combOperation s := by
  have hwork : operate s.a s.b w = operate s.a s.b s.work := operate_congr s.a s.b w s.work
  rw [combOperation, State.setWork_a, State.setWork_b, State.setWork_work, hwork]
  rfl

/-- The pair of the next presentation replaces the pair before it, and the working state is not read, so nothing of the
operation before is left (R171). -/
theorem combOperation_present_combOperation_present (a b c d : Nat) (s : State) :
    combOperation (present c d (combOperation (present a b s))) = combOperation (present c d s) :=
  combOperation_setWork (present c d s) (operate (trunc8 a) (trunc8 b) s.work)

/-- An operation of profile COMB does not look at `rst` and `start` (R165). -/
theorem combOperation_setInputs (s : State) (rst start : Bool) :
    combOperation (s.setInputs rst start) = (combOperation s).setInputs rst start := rfl

end Sys2Proof.Machine

namespace Sys2Proof.Proofs

open Sys2Proof.Machine

/-- Settles O14: both operations complete, and the second overwrites the ports and does not read the working state,
which is all the first has written. -/
theorem noHazardBetweenOperations : Obligations.NoHazardBetweenOperations := by
  rintro ⟨a, b⟩ ⟨c, d⟩ s hs
  refine ⟨_, _, exec_comb hs a b, ?_, exec_comb hs c d⟩
  rw [← combOperation_present_combOperation_present a b c d s]
  exact exec_comb (by simpa using hs) c d

/-- Settles O42: the output wire and GFMUL carry REF in every state of profile COMB, and the step is the operation,
which commutes with driving `rst` and `start`. -/
theorem combNeedsNoReset : Obligations.CombNeedsNoReset := by
  refine ⟨rfl, fun a b s hs => ⟨?_, delivers_gfmul hs a b, _, step_comb hs, fun r st => ?_⟩⟩
  · rw [portP_comb (by simpa using hs), combOutput_eq_refMul, present_a, present_b]
  · rw [← combOperation_setInputs]
    exact step_comb (by simpa using hs)

end Sys2Proof.Proofs
end

section
/-! SUPPORT. Encoding and step (R57 to R62): the operand word is the pair of its fields, the encoder and the decoder are
inverse to one another, and a step runs what the decoder reads from the ports. -/

namespace Sys2Proof

theorem decodeIn_encode {i : Instr} (h : i.wellFormed = true) : decodeIn (encode i) = i := by
  obtain ⟨a, b⟩ := i
  obtain ⟨ha, hb⟩ := (wellFormed_gfmul_iff a b).1 h
  rw [encode, decodeIn_inOf, BitVec.toNat_ofNat, BitVec.toNat_ofNat, Nat.mod_eq_of_lt (Nat.lt_succ_of_le ha),
    Nat.mod_eq_of_lt (Nat.lt_succ_of_le hb)]

/-- The decoder of bytes reads the word the bytes make. -/
theorem decode_encodeBytes (i : Instr) : decode (encodeBytes i) = .ok (decodeIn (encode i)) := by
  rw [encodeBytes, decode, inOf_fields]

theorem inOf_toNat (a b : Byte) : (inOf a b).toNat = 256 * a.toNat + b.toNat := by
  rw [inOf, BitVec.toNat_append, ← Nat.shiftLeft_add_eq_or_of_lt b.isLt, Nat.shiftLeft_eq, Nat.mul_comm]

/-- A word the table decoder takes is decoded as the word on the ports would be. -/
theorem eq_decodeIn_tableWord {nbits w : Nat} {i : Instr} (h : decodeTableWord nbits w = some i) :
    i = decodeIn (tableWord nbits w) := by
  rw [decodeTableWord] at h
  split at h
  · exact (Option.some.inj h).symm
  · cases h

end Sys2Proof

namespace Sys2Proof.Machine

/-- An operation replaces the pair on the ports by its own. -/
theorem exec_setPorts (i : Instr) (s : State) (a b : Byte) : exec i (s.setPorts a b) = exec i s := rfl

/-- The operation of the pair on the ports delivers what `p` shows (R56). -/
theorem delivers_portP {s : State} (hs : s.style = .comb) :
    Safety.Delivers (decodeIn (portWord s)) s (portP s) := by
  rw [portWord, decodeIn_inOf, portP_comb hs, combOutput_eq_refMul]
  exact delivers_of_refMul_eq hs (by rw [trunc8_toNat, trunc8_toNat])

/-- The next step after a word is placed runs that word's operation; in profile SEQ the request stands beside it. -/
theorem step_placeWord (w : InWord) (s : State) :
    (s.style = .comb → step (placeWord w s) = exec (decodeIn w) s) ∧
    (s.style = .seq → step (placeWord w s) = exec (decodeIn w) (s.setInputs false true)) := by
  constructor
  · intro hs
    have hplace : placeWord w s = s.setPorts (fieldA w) (fieldB w) := by rw [placeWord, hs]
    rw [hplace, step, portWord, State.setPorts_a, State.setPorts_b, inOf_fields, exec_setPorts]
  · intro hs
    have hplace : placeWord w s = (s.setInputs false true).setPorts (fieldA w) (fieldB w) := by
      rw [placeWord, hs]
      rfl
    rw [hplace, step, portWord, State.setPorts_a, State.setPorts_b, inOf_fields, exec_setPorts]

end Sys2Proof.Machine

namespace Sys2Proof.Proofs

open Sys2Proof.Machine

/-- Settles O1: the fields of `{a, b}` are the low bytes of the operands, and an operand in range is its own low byte;
the bytes are the fields of the same word. -/
theorem decodeInvertsEncode : Obligations.DecodeInvertsEncode := by
  intro i hi
  have hword : decodeIn (encode i) = i := decodeIn_encode hi
  exact ⟨hword, by rw [decode_encodeBytes, hword]⟩

/-- Settles O3: `Instr` has one constructor, the fields are read and written by their bits, and the step is the GFMUL
the decoder makes of the word on the ports. -/
theorem onlyOperationIsGfmulOnPortPair : Obligations.OnlyOperationIsGfmulOnPortPair := by
  refine ⟨fun ⟨a, b⟩ => ⟨a, b, rfl⟩, fun w k hk => ⟨getLsbD_fieldA w hk, getLsbD_fieldB w hk⟩,
    fun a b => ⟨inOf_toNat a b, decodeIn_inOf a b⟩, fun s => ?_, fun s hs => delivers_portP hs⟩
  rw [step, portWord, decodeIn_inOf]

/-- Settles O4: the decoder is evaluated on the four words and the one pair of bytes. -/
theorem writtenWordsDecode : Obligations.WrittenWordsDecode := by
  unfold Obligations.WrittenWordsDecode
  decide

/-- Settles O5: a step is exec of the decoded port word by definition, and a placed word is the port word of the state
it is placed in. -/
theorem stepRunsDecodedOperation : Obligations.StepRunsDecodedOperation := by
  refine ⟨fun s => rfl, fun s nbits w i hi => ?_⟩
  rw [eq_decodeIn_tableWord hi]
  exact step_placeWord (tableWord nbits w) s

end Sys2Proof.Proofs
end

section
/-! SUPPORT. What every step keeps: the inputs and the parameter, the frame of GFMUL, and the invariant of the block;
and which states a step of profile SEQ has no meaning in. -/

namespace Sys2Proof.Machine

open Sys2Proof.Safety

/-! ### Frames -/

/-- An edge writes the working state, RUN, VALID, and the model's record of a reset edge. -/
theorem seqEdge_frame {s t : State} (h : seqEdge s = .next t) :
    t = { s with work := t.work, run := t.run, valid := t.valid, resetSeen := s.rst || s.resetSeen } := by
  rcases seqEdge_cases h with ⟨hrst, rfl⟩ | ⟨hrst, -, -, hcases⟩
  · have hseen : (s.rst || s.resetSeen) = true := by rw [hrst, Bool.true_or]
    rw [hseen]
    rfl
  · have hseen : (s.rst || s.resetSeen) = s.resetSeen := by rw [hrst, Bool.false_or]
    rw [hseen]
    rcases hcases with ⟨-, -, rfl⟩ | ⟨-, rfl⟩ | ⟨-, -, rfl⟩
    · rfl
    · exact iterateEdge_frame s
    · rfl

/-! ### The states a step of profile SEQ has a meaning in -/

theorem seqUnreachable_iff (s : State) :
    seqUnreachable s = true ↔ 8 < s.work.iter.toNat ∨ (s.run = true ∧ s.valid = true) := by
  rw [seqUnreachable, Bool.or_eq_true, Bool.and_eq_true, decide_eq_true_iff]

/-- Before the first reset edge an edge without reset is refused (R167, U8). -/
theorem step_eq_seqBeforeReset {s : State} (hstyle : s.style = .seq) (hrst : s.rst = false)
    (hseen : s.resetSeen = false) : step s = .refused .seqBeforeReset := by
  simp [step_seq hstyle, seqEdge, hrst, hseen]

/-- In the states U9 lists an edge without reset is refused. -/
theorem step_eq_seqUnreachable {s : State} (hstyle : s.style = .seq) (hrst : s.rst = false)
    (hseen : s.resetSeen = true) (hreach : seqUnreachable s = true) : step s = .refused .seqUnreachable := by
  simp [step_seq hstyle, seqEdge, hrst, hseen, hreach]

/-- In a ready state every edge answers a next state: it resets, iterates, accepts or holds (R132). -/
theorem exists_step_of_seqReady {s : State} (hs : SeqReady s) : ∃ t, step s = .next t := by
  have hstyle : s.style = .seq := hs.1
  cases hrst : s.rst with
  | true => exact ⟨_, step_eq_resetEdge hstyle hrst⟩
  | false =>
    cases hrun : s.run with
    | true => exact ⟨_, step_eq_iterateEdge hs hrst hrun⟩
    | false =>
      cases hstart : s.start with
      | true => exact ⟨_, step_eq_acceptEdge hs hrst hrun hstart⟩
      | false => exact ⟨_, step_eq_self hs hrst hrun hstart⟩

/-! ### The invariant -/

theorem blockInv_comb {s : State} (hs : s.style = .comb) :
    BlockInv s ↔ OnTrace s.work ∧ s.run = false ∧ s.valid = false := by
  rw [BlockInv, hs]

theorem blockInv_seq {s : State} (hs : s.style = .seq) :
    BlockInv s ↔ (s.resetSeen = true → OnTrace s.work ∧ ControlAgrees s) := by
  rw [BlockInv, hs]

theorem HoldsNets.onTrace {a b : Byte} {n : Nat} {w : Work} (h : HoldsNets a b n w) (hn : n ≤ 8) : OnTrace w := by
  have hiter : w.iter.toNat = n := h.iter_toNat hn
  obtain ⟨hacc, hmcand, hmplier, -⟩ := h
  rw [OnTrace, hiter]
  exact ⟨hn, a, b, hacc, hmcand, hmplier⟩

/-- Registers on a trace hold the nets of the stage that ITER names. -/
theorem exists_holdsNets_of_onTrace {w : Work} (h : OnTrace w) : ∃ a b, HoldsNets a b w.iter.toNat w := by
  obtain ⟨-, a, b, hacc, hmcand, hmplier⟩ := h
  exact ⟨a, b, hacc, hmcand, hmplier, by simp⟩

/-- The agreement of the control registers with CNT shuts out the states U9 lists. -/
theorem seqUnreachable_eq_false_of_controlAgrees {s : State} (h : ControlAgrees s) : seqUnreachable s = false := by
  rw [Bool.eq_false_iff, Ne, seqUnreachable_iff]
  rcases h with ⟨-, hvalid, hiter⟩ | ⟨hrun, -, hiter⟩ | ⟨hrun, -, hiter⟩
  · simp [hvalid]
    omega
  · simp [hrun, hiter]
  · simp [hrun, hiter]

/-- After a reset edge a state of profile SEQ that meets the invariant is one an edge has a meaning in. -/
theorem seqReady_of_blockInv {s : State} (hs : s.style = .seq) (hseen : s.resetSeen = true) (hinv : BlockInv s) :
    SeqReady s := by
  obtain ⟨-, hcontrol⟩ := (blockInv_seq hs).1 hinv hseen
  exact ⟨hs, hseen, seqUnreachable_eq_false_of_controlAgrees hcontrol⟩

theorem combOperation_blockInv {s : State} (hs : s.style = .comb) (hinv : BlockInv s) : BlockInv (combOperation s) := by
  obtain ⟨-, hcontrol⟩ := (blockInv_comb hs).1 hinv
  exact (blockInv_comb (s := combOperation s) hs).2
    ⟨(iterations_initWork_holdsNets s.a s.b s.work 8).onTrace (Nat.le_refl 8), hcontrol⟩

/-- A reset edge leaves the registers at position 0 of GFMUL 0x00, 0x00, and the block idle, from any state (R133). -/
theorem resetEdge_blockInv {s : State} (hs : s.style = .seq) : BlockInv (resetEdge s) := by
  have hnets : HoldsNets 0 0 0 (resetEdge s).work := ⟨rfl, rfl, rfl, rfl⟩
  exact (blockInv_seq (s := resetEdge s) hs).2 fun _ => ⟨hnets.onTrace (Nat.zero_le 8), .inr (.inr ⟨rfl, rfl, rfl⟩)⟩

/-- An accepting edge leaves the registers at position 0 of the pair on the ports, and the block busy, from any state
(R134). -/
theorem acceptEdge_blockInv {s : State} (hs : s.style = .seq) : BlockInv (acceptEdge s) :=
  (blockInv_seq (s := acceptEdge s) hs).2 fun _ =>
    ⟨(initWork_holdsNets s.a s.b s.work).onTrace (Nat.zero_le 8), .inl ⟨rfl, rfl, Nat.zero_le 7⟩⟩

/-- A busy block has an iteration to do; after it RUN and VALID say whether it was the last. -/
theorem iterateEdge_controlAgrees {s : State} (hrun : s.run = true) (hvalid : s.valid = false)
    (hle : s.work.iter.toNat ≤ 7) : ControlAgrees (iterateEdge s) := by
  have hseven : s.work.iter = 7 ↔ s.work.iter.toNat = 7 := BitVec.toNat_inj.symm
  rw [ControlAgrees, iterateEdge_iter_toNat hle, iterateEdge_run, iterateEdge_valid, hrun, hvalid]
  by_cases hlast : s.work.iter = 7
  · rw [if_pos hlast, if_pos hlast]
    exact .inr (.inl ⟨rfl, rfl, by have := hseven.1 hlast; omega⟩)
  · rw [if_neg hlast, if_neg hlast]
    exact .inl ⟨rfl, rfl, by have := mt hseven.2 hlast; omega⟩

theorem iterateEdge_blockInv {s : State} (hs : s.style = .seq) (hrun : s.run = true) (hseen : s.resetSeen = true)
    (hinv : BlockInv s) : BlockInv (iterateEdge s) := by
  obtain ⟨htrace, hcontrol⟩ := (blockInv_seq hs).1 hinv hseen
  obtain ⟨hvalid, hle⟩ : s.valid = false ∧ s.work.iter.toNat ≤ 7 := by simpa [ControlAgrees, hrun] using hcontrol
  obtain ⟨a, b, hnets⟩ := exists_holdsNets_of_onTrace htrace
  have hstyle : (iterateEdge s).style = .seq := by rw [iterateEdge_frame]; exact hs
  exact (blockInv_seq hstyle).2 fun _ =>
    ⟨(iterateEdge_holdsNets hnets).onTrace (Nat.succ_le_succ hle), iterateEdge_controlAgrees hrun hvalid hle⟩

/-! ### The bench of profile COMB -/

/-- After a presentation the presented pair is on the ports, whether it was there before or not (R44, R56). -/
theorem benchPresent_block (a b : Nat) (t : Bench) : (benchPresent a b t).block = present a b t.block := by
  rw [benchPresent]
  split
  · obtain ⟨ha, hb⟩ := ‹_ ∧ _›
    rw [present, ha, hb]
    rfl
  · rfl

/-- A sample after at least T_PD shows `p` (R170). -/
theorem benchSample_benchWait {n : Nat} (hn : Config.tPd ≤ n) (t : Bench) :
    (benchSample (benchWait n t)).1 = portP t.block := by
  have hstable : Config.tPd ≤ (benchWait n t).stableFor := Nat.le_add_left_of_le hn
  rw [benchSample, if_pos hstable]
  rfl

theorem portP_eq_refMul {s : State} (hs : s.style = .comb) : portP s = refMul s.a s.b := by
  rw [portP_comb hs, combOutput_eq_refMul]

end Sys2Proof.Machine

namespace Sys2Proof.Proofs

open Sys2Proof.Machine Sys2Proof.Safety

/-- Settles O55: an operation of profile COMB ends at position 8 of its own nets; in profile SEQ the reset and the
accepting edge stand at position 0, the iterating edge moves on by one, and the holding edge changes nothing. -/
theorem stepKeepsInvariant : Obligations.StepKeepsInvariant := by
  intro s t hinv hstep
  rcases step_cases hstep with ⟨hs, rfl⟩ | ⟨hs, hedge⟩
  · exact combOperation_blockInv hs hinv
  · rcases seqEdge_cases hedge with ⟨-, rfl⟩ | ⟨-, hseen, -, ⟨-, -, rfl⟩ | ⟨hrun, rfl⟩ | ⟨-, -, rfl⟩⟩
    · exact resetEdge_blockInv hs
    · exact acceptEdge_blockInv hs
    · exact iterateEdge_blockInv hs hrun hseen hinv
    · exact hinv

/-- Settles O6: the operation of profile COMB writes the working state only, and no edge of profile SEQ writes an input
or the parameter. -/
theorem stepLeavesInputsAndStyle : Obligations.StepLeavesInputsAndStyle := by
  intro s t hstep
  rcases step_cases hstep with ⟨-, rfl⟩ | ⟨hs, hedge⟩
  · exact ⟨rfl, rfl, rfl, rfl, rfl, fun _ => ⟨rfl, rfl, rfl⟩⟩
  · obtain ⟨hstyle, ha, hb, hrst, hstart⟩ := seqEdge_inputs hedge
    exact ⟨hstyle, ha, hb, hrst, hstart, fun hcomb => absurd (hs.symm.trans hcomb) (by decide)⟩

/-- Settles O9: GFMUL puts the pair on the ports and then writes the working state (COMB), or what an edge writes
(SEQ). -/
theorem gfmulFrame : Obligations.GfmulFrame := by
  refine fun a b s => ⟨fun hs => ⟨_, exec_comb hs a b, rfl⟩, fun hs t hexec => ?_⟩
  rw [exec_seq hs] at hexec
  exact seqEdge_frame hexec

/-- Settles O13: the second operation puts the same pair on the ports and does not read what the first left in the
working state. -/
theorem repeatedOperationIsIdempotent : Obligations.RepeatedOperationIsIdempotent := by
  intro a b s hs
  refine ⟨_, exec_comb hs a b, ?_⟩
  rw [exec_comb (by simpa using hs), combOperation_present_combOperation_present]

/-- Settles O15: the output wire carries REF of the ports, and a sample after T_PD reads it. -/
theorem outputFollowsPresentPair : Obligations.OutputFollowsPresentPair := by
  refine ⟨fun s hs => portP_eq_refMul hs, fun a b n t hs hn => ?_⟩
  rw [benchSample_benchWait hn, benchPresent_block, portP_eq_refMul (by simpa using hs), present_a, present_b]

/-- Settles O52: the run of an accepted operation ends with the reference product on `p`, which is what GFMUL delivers
in profile COMB. -/
theorem seqAgreesWithComb : Obligations.SeqAgreesWithComb := by
  intro s c a b is hs hrun hc hlen hrst
  obtain ⟨t, hedges, ht⟩ := edges_accept_seqRunsAt hs hrun a b hlen.le hrst
  rw [hlen] at ht
  exact ⟨t, hedges, delivers_of_refMul_eq hc (by rw [trunc8_toNat, trunc8_toNat, ht.portP_eq_refMul])⟩

/-- Settles O53: in a state U9 lists the edge is refused, and in every other state it answers a next state. -/
theorem seqRefusedInUnreachableState : Obligations.SeqRefusedInUnreachableState := by
  intro s hs hrst hseen
  rw [← seqUnreachable_iff]
  refine ⟨step_eq_seqUnreachable hs hrst hseen, fun hrefused => ?_⟩
  by_contra hreach
  obtain ⟨t, hnext⟩ := exists_step_of_seqReady ⟨hs, hseen, Bool.eq_false_iff.2 hreach⟩
  exact absurd (hnext.symm.trans hrefused) (by simp)

/-- Settles O56: an operation of profile COMB always completes, a reset edge always answers, and the invariant makes
every other state of profile SEQ after a reset edge a ready one. -/
theorem invariantStatesNeverStop : Obligations.InvariantStatesNeverStop := by
  intro s hinv hreset
  cases hs : s.style with
  | comb => exact ⟨_, step_comb hs⟩
  | seq =>
    rcases hreset hs with hseen | hrst
    · exact exists_step_of_seqReady (seqReady_of_blockInv hs hseen hinv)
    · exact ⟨_, step_eq_resetEdge hs hrst⟩

/-- Settles O43: INIT of the pair on the ports differs from any working state at most in OVF, which it keeps. -/
theorem resetStateIsInit : Obligations.ResetStateIsInit := fun w => (initWork_eq 0x00 0x00 w).symm

/-- Settles O44: with `rst` 1 the edge is `resetEdge`, whatever the registers hold; without it the missing reset edge is
what refuses. -/
theorem seqResetEdge : Obligations.SeqResetEdge :=
  ⟨fun _ hs hrst => step_eq_resetEdge hs hrst, fun _ hs hrst hseen => step_eq_seqBeforeReset hs hrst hseen⟩

/-- Settles O54: State.reset stands at position 0 of GFMUL 0x00, 0x00 with RUN and VALID 0, and a reset edge puts the
block of profile SEQ there from any state. -/
theorem invariantHoldsAtReset : Obligations.InvariantHoldsAtReset := by
  have hnets : HoldsNets 0 0 0 State.reset.work := ⟨rfl, rfl, rfl, rfl⟩
  exact ⟨(blockInv_comb rfl).2 ⟨hnets.onTrace (Nat.zero_le 8), rfl, rfl⟩,
    fun s hs hrst => ⟨_, step_eq_resetEdge hs hrst, resetEdge_blockInv hs⟩⟩

end Sys2Proof.Proofs
end

section
/-! SUPPORT. The bytes as the ring GF(2)[x] modulo `m(x)` (R77): XOR is its addition, REF its product, XTIME the
product with `x` and GFMUL's powers its powers. Laws of REF and XTIME are ring identities read back in bytes. -/

namespace Sys2Proof.Safety

open Sys2Proof.Machine Polynomial

/-- The residue class modulo `m(x)` of the polynomial a byte stands for. -/
noncomputable def residue (v : Byte) : AdjoinRoot mPoly := AdjoinRoot.mk mPoly (poly v)

@[simp] theorem residue_zero : residue 0#8 = 0 := by
  rw [residue, poly_zero, map_zero]

@[simp] theorem residue_one : residue 1#8 = 1 := by
  have hpoly : poly 1#8 = 1 := by simp [poly]
  rw [residue, hpoly, map_one]

@[simp] theorem residue_xor (u v : Byte) : residue (u ^^^ v) = residue u + residue v := by
  rw [residue, poly_xor, map_add]
  rfl

/-- Reducing modulo `m(x)` does not change the residue class. -/
theorem residue_eq_mk_of_poly_eq {v : Byte} {p : Polynomial (ZMod 2)} (h : poly v = p %ₘ mPoly) :
    residue v = AdjoinRoot.mk mPoly p := by
  rw [residue, h]
  exact AdjoinRoot.mk_eq_mk.2 (dvd_modByMonic_sub p mPoly)

@[simp] theorem residue_refMul (a b : Byte) : residue (refMul a b) = residue a * residue b := by
  rw [residue_eq_mk_of_poly_eq (poly_refMul a b), map_mul]
  rfl

@[simp] theorem residue_xtime (v : Byte) : residue (xtime v) = residue v * AdjoinRoot.root mPoly := by
  rw [residue_eq_mk_of_poly_eq (poly_xtime_eq_modByMonic v), map_mul, AdjoinRoot.mk_X]
  rfl

/-- A byte is the one reduced polynomial of its residue class. -/
theorem residue_injective : Function.Injective residue := by
  intro u v h
  refine poly_injective ?_
  rw [← poly_modByMonic_mPoly v]
  exact poly_eq_modByMonic_of_dvd (AdjoinRoot.mk_eq_mk.1 h)

theorem residue_iterate_xtime (v : Byte) (n : Nat) :
    residue (xtime^[n] v) = residue v * AdjoinRoot.root mPoly ^ n := by
  induction n with
  | zero => simp
  | succ n ih => rw [Function.iterate_succ_apply', residue_xtime, ih, mul_assoc, ← pow_succ]

@[simp] theorem residue_gfPow (x : Byte) (n : Nat) : residue (gfPow x n) = residue x ^ n := by
  induction n with
  | zero => simp [gfPow]
  | succ n ih => rw [gfPow, combOutput_eq_refMul, residue_refMul, ih, pow_succ]

theorem gfPow_eq_one_iff (x : Byte) (n : Nat) : gfPow x n = 1#8 ↔ residue x ^ n = 1 := by
  rw [← residue_gfPow, ← residue_one, residue_injective.eq_iff]

theorem gfPow_add (x : Byte) (m n : Nat) : gfPow x (m + n) = refMul (gfPow x m) (gfPow x n) :=
  residue_injective (by simp [pow_add])

theorem gfPow_mul (x : Byte) (m n : Nat) : gfPow x (m * n) = gfPow (gfPow x m) n :=
  residue_injective (by simp [pow_mul])

@[simp] theorem gfPow_one_left (n : Nat) : gfPow 1#8 n = 1#8 :=
  residue_injective (by simp)

/-- The low `i` bits of a byte are the low `i` terms of its polynomial. -/
theorem poly_and_low_bits (b : Byte) {i : Nat} (hi : i ≤ 8) :
    poly (b &&& BitVec.ofNat 8 (2 ^ i - 1)) = polyBelow b i := by
  ext k
  have hmask : (BitVec.ofNat 8 (2 ^ i - 1)).getLsbD k = decide (k < i) := by
    rw [BitVec.getLsbD_ofNat, Nat.testBit_two_pow_sub_one, ← Bool.decide_and]
    exact decide_eq_decide.2 (by omega)
  rw [coeff_poly, BitVec.getLsbD_and, hmask, polyBelow, finsetSum_coeff]
  simp only [coeff_ite_X_pow, Finset.sum_ite_eq, Finset.mem_range]
  by_cases hk : k < i <;> simp [hk]

end Sys2Proof.Safety

namespace Sys2Proof.Machine

open Sys2Proof.Safety

/-! ### XTIME -/

/-- Bit `k` of XTIME: the bit below, and the bit of `0x1B` where bit 7 leaves the byte (R119). -/
theorem getLsbD_xtime (v : Byte) (k : Nat) :
    (xtime v).getLsbD k = ((v <<< 1).getLsbD k ^^ (v.getLsbD 7 && Config.red.getLsbD k)) := by
  rw [xtime, BitVec.getLsbD_xor, overflow]
  cases v.getLsbD 7
  · exact congrArg _ BitVec.getLsbD_zero
  · rfl

/-- Bit 0 of XTIME is the bit that left the byte. -/
theorem getLsbD_xtime_zero (v : Byte) : (xtime v).getLsbD 0 = v.getLsbD 7 := by
  rw [getLsbD_xtime, getLsbD_shiftLeft_one_zero, Bool.false_xor]
  exact Bool.and_true _

theorem getLsbD_xtime_succ (v : Byte) {k : Nat} (hk : k < 7) :
    (xtime v).getLsbD (k + 1) = (v.getLsbD k ^^ (v.getLsbD 7 && Config.red.getLsbD (k + 1))) := by
  rw [getLsbD_xtime, getLsbD_shiftLeft_one_succ v hk]

/-- The inverse of XTIME (R123): bit 0 tells whether `0x1B` was added, and `0x8D` is `0x1B` shifted back with the bit
that left the byte. -/
def xtimeInverse (v : Byte) : Byte := (v >>> 1) ^^^ (if v.getLsbD 0 then 0x8D#8 else 0x00)

theorem getLsbD_xtimeInverse (v : Byte) (k : Nat) :
    (xtimeInverse v).getLsbD k = (v.getLsbD (k + 1) ^^ (v.getLsbD 0 && (0x8D#8).getLsbD k)) := by
  rw [xtimeInverse, BitVec.getLsbD_xor, BitVec.getLsbD_ushiftRight, Nat.add_comm]
  cases v.getLsbD 0
  · exact congrArg _ BitVec.getLsbD_zero
  · rfl

theorem xtimeInverse_xtime (v : Byte) : xtimeInverse (xtime v) = v := by
  refine BitVec.eq_of_getLsbD_eq fun k hk => ?_
  rw [getLsbD_xtimeInverse, getLsbD_xtime_zero]
  by_cases hlow : k < 7
  · have hconst : (0x8D#8).getLsbD k = Config.red.getLsbD (k + 1) := by
      revert k
      decide
    rw [getLsbD_xtime_succ v hlow, hconst, Bool.xor_assoc, Bool.xor_self, Bool.xor_false]
  · obtain rfl : k = 7 := by omega
    rw [BitVec.getLsbD_of_ge _ 8 (Nat.le_refl 8), Bool.false_xor]
    exact Bool.and_true _

theorem xtime_injective : Function.Injective xtime := Function.LeftInverse.injective xtimeInverse_xtime

theorem xtime_xor (u v : Byte) : xtime (u ^^^ v) = xtime u ^^^ xtime v :=
  residue_injective (by simp [add_mul])

theorem mcandNet_eq_iterate_xtime (a : Byte) (i : Nat) : mcandNet a i = xtime^[i] a := by
  induction i with
  | zero => rfl
  | succ i ih => rw [mcandNet_succ, ih, Function.iterate_succ_apply']

/-- `i` applications of XTIME are one product with the byte of `x^i`. -/
theorem iterate_xtime_eq_refMul (a : Byte) (i : Nat) : xtime^[i] a = refMul a (xtime^[i] 1#8) :=
  residue_injective (by simp [residue_iterate_xtime])

/-- XTIME is the product with `x`, the byte 0x02 (R119). -/
theorem refMul_two_right (v : Byte) : refMul v 2#8 = xtime v := (iterate_xtime_eq_refMul v 1).symm

/-! ### Laws of REF -/

theorem refMul_assoc (a b c : Byte) : refMul (refMul a b) c = refMul a (refMul b c) :=
  residue_injective (by simp [mul_assoc])

theorem refMul_xor_right (a b c : Byte) : refMul a (b ^^^ c) = refMul a b ^^^ refMul a c :=
  residue_injective (by simp [mul_add])

theorem refMul_xor_left (a b c : Byte) : refMul (a ^^^ c) b = refMul a b ^^^ refMul c b :=
  residue_injective (by simp [add_mul])

/-- After `i` iterations ACC is the product with the bits of `b` consumed so far (R105). -/
theorem accNet_eq_refMul_low_bits (a b : Byte) {i : Nat} (hi : i ≤ 8) :
    accNet a b i = refMul a (b &&& BitVec.ofNat 8 (2 ^ i - 1)) :=
  poly_injective (by rw [poly_accNet, poly_refMul, poly_and_low_bits b hi])

/-- The product over the bits of `b` (R87). -/
theorem combOutput_eq_xor_bits (a b : Byte) :
    combOutput a b =
      ((if b.getLsbD 0 then a else 0) ^^^ (if b.getLsbD 1 then xtime^[1] a else 0) ^^^
       (if b.getLsbD 2 then xtime^[2] a else 0) ^^^ (if b.getLsbD 3 then xtime^[3] a else 0) ^^^
       (if b.getLsbD 4 then xtime^[4] a else 0) ^^^ (if b.getLsbD 5 then xtime^[5] a else 0) ^^^
       (if b.getLsbD 6 then xtime^[6] a else 0) ^^^ (if b.getLsbD 7 then xtime^[7] a else 0)) := by
  have hstart : accNet a b 0 ^^^ (if b.getLsbD 0 then a else 0) = if b.getLsbD 0 then a else 0 := BitVec.zero_xor
  simp only [combOutput, accNet_succ, mcandNet_eq_iterate_xtime]
  exact congrArg (· ^^^ _ ^^^ _ ^^^ _ ^^^ _ ^^^ _ ^^^ _ ^^^ _) hstart

/-! ### Orders -/

/-- The order of a byte, from powers of it: one that is 0x01, and none at that exponent divided by a prime. -/
theorem orderOf_residue_eq {x : Byte} {n : Nat} (hn : 0 < n) (hone : gfPow x n = 1#8)
    (hprime : ∀ p ∈ n.primeFactorsList, gfPow x (n / p) ≠ 1#8) : orderOf (residue x) = n := by
  refine orderOf_eq_of_pow_and_pow_div_prime hn ((gfPow_eq_one_iff x n).1 hone) fun p hp hdvd => ?_
  exact mt (gfPow_eq_one_iff x (n / p)).2 (hprime p ((Nat.mem_primeFactorsList hn.ne').2 ⟨hp, hdvd⟩))

/-- No positive power below the order is 0x01. -/
theorem gfPow_ne_one_of_lt_orderOf {x : Byte} {n k : Nat} (horder : orderOf (residue x) = n) (hk : 0 < k)
    (hlt : k < n) : gfPow x k ≠ 1#8 :=
  mt (gfPow_eq_one_iff x k).1 (pow_ne_one_of_lt_orderOf hk.ne' (horder ▸ hlt))

theorem gfPow_two_seventeen : gfPow 2#8 17 = 0xBC#8 := by
  have hsquare : gfPow 2#8 8 = 0x1B#8 := by decide
  rw [gfPow_add 2#8 (8 * 2) 1, gfPow_mul, hsquare]
  decide

theorem gfPow_two_fiftyOne : gfPow 2#8 51 = 1#8 := by
  rw [gfPow_mul 2#8 17 3, gfPow_two_seventeen]
  decide

/-- 0x02 has order `51 = 3 * 17`. -/
theorem orderOf_residue_two : orderOf (residue 2#8) = 51 := by
  refine orderOf_residue_eq (by decide) gfPow_two_fiftyOne ?_
  have hprimes : (51).primeFactorsList = [3, 17] := by simp
  rw [hprimes, List.forall_mem_cons, List.forall_mem_singleton]
  refine ⟨?_, by decide⟩
  rw [show 51 / 3 = 17 from rfl, gfPow_two_seventeen]
  decide

theorem gfPow_three_seventeen : gfPow 3#8 17 = 0xE1#8 := by
  rw [gfPow_add 3#8 (5 * 3) 2, gfPow_mul]
  decide

theorem gfPow_three_twoFiftyFive : gfPow 3#8 255 = 1#8 := by
  rw [gfPow_mul 3#8 17 15, gfPow_mul _ 3 5, gfPow_three_seventeen]
  decide

/-- 0x03 has order `255 = 3 * 5 * 17`. -/
theorem orderOf_residue_three : orderOf (residue 3#8) = 255 := by
  refine orderOf_residue_eq (by decide) gfPow_three_twoFiftyFive ?_
  have hprimes : (255).primeFactorsList = [3, 5, 17] := by simp
  rw [hprimes, List.forall_mem_cons, List.forall_mem_cons, List.forall_mem_singleton]
  refine ⟨?_, ?_, ?_⟩
  · rw [show 255 / 3 = 17 * 5 from rfl, gfPow_mul, gfPow_three_seventeen]
    decide
  · rw [show 255 / 5 = 17 * 3 from rfl, gfPow_mul, gfPow_three_seventeen]
    decide
  · rw [show 255 / 17 = 5 * 3 from rfl, gfPow_mul]
    decide

/-- The iterates of XTIME on 0x01 are the powers of 0x02, both being the powers of `x`. -/
theorem iterate_xtime_one_eq_gfPow (n : Nat) : xtime^[n] 1#8 = gfPow 2#8 n := by
  have htwo : residue 2#8 = AdjoinRoot.root mPoly := by
    rw [← refMul_one_left 2#8, refMul_two_right, residue_xtime, residue_one, one_mul]
  exact residue_injective (by rw [residue_iterate_xtime, residue_gfPow, residue_one, one_mul, htwo])

/-- The 51st power of 0x02 is 0x01, so 51 applications of XTIME give every byte back (R123). -/
theorem iterate_xtime_fiftyOne (v : Byte) : xtime^[51] v = v := by
  rw [iterate_xtime_eq_refMul, iterate_xtime_one_eq_gfPow, gfPow_two_fiftyOne, refMul_one_right]

/-! ### 0x03 generates every non-zero byte -/

/-- A power 0x00 of 0x03 would make its 255th power 0x00. -/
theorem gfPow_three_ne_zero {n : Nat} (hn : n ≤ 255) : gfPow 3#8 n ≠ 0#8 := by
  intro hzero
  have hone : gfPow 3#8 255 = refMul (gfPow 3#8 n) (gfPow 3#8 (255 - n)) := by
    rw [← gfPow_add, Nat.add_sub_cancel' hn]
  rw [gfPow_three_twoFiftyFive, hzero, refMul_zero_left] at hone
  exact absurd hone (by decide)

theorem gfPow_three_injOn : Set.InjOn (gfPow 3#8) (Finset.range 255) := by
  rw [Finset.coe_range, ← orderOf_residue_three]
  intro i hi j hj hij
  have hpow : residue 3#8 ^ i = residue 3#8 ^ j := by rw [← residue_gfPow, ← residue_gfPow, hij]
  exact pow_injOn_Iio_orderOf hi hj hpow

/-- The 255 powers of 0x03 are distinct and non-zero, and there are 255 non-zero bytes. -/
theorem exists_gfPow_three_eq {a : Byte} (ha : a ≠ 0#8) : ∃ n, gfPow 3#8 n = a := by
  have hcard : (Finset.univ.erase (0#8 : Byte)).card = 255 := by
    rw [Finset.card_erase_of_mem (Finset.mem_univ _), Finset.card_univ, ← FinEnum.card_eq_fintypeCard,
      FinEnum.card_bitVec]
    rfl
  have hmaps : Set.MapsTo (gfPow 3#8) (Finset.range 255) (Finset.univ.erase 0#8) := fun n hn => by
    have hlt : n < 255 := by simpa using hn
    simpa using gfPow_three_ne_zero hlt.le
  have hsurj := Finset.surjOn_of_injOn_of_card_le _ hmaps gfPow_three_injOn (by simp [hcard])
  obtain ⟨n, -, hn⟩ := hsurj (by simpa using ha)
  exact ⟨n, hn⟩

/-- Every non-zero byte is a power of 0x03, whose order is 255 (R84). -/
theorem gfPow_twoFiftyFive {a : Byte} (ha : a ≠ 0#8) : gfPow a 255 = 1#8 := by
  obtain ⟨n, rfl⟩ := exists_gfPow_three_eq ha
  rw [← gfPow_mul, Nat.mul_comm, gfPow_mul, gfPow_three_twoFiftyFive, gfPow_one_left]

/-- The inverse of a non-zero byte is its 254th power. -/
theorem refMul_gfPow_inverse {a : Byte} (ha : a ≠ 0#8) : refMul (gfPow a 254) a = 1#8 := by
  rw [← combOutput_eq_refMul]
  exact gfPow_twoFiftyFive ha

/-- The product with the inverse undoes the product, so a non-zero row is a permutation. -/
theorem bijective_refMul {a : Byte} (ha : a ≠ 0#8) : Function.Bijective (refMul a) := by
  refine Function.bijective_iff_has_inverse.2 ⟨refMul (gfPow a 254), fun b => ?_, fun b => ?_⟩
  · rw [← refMul_assoc, refMul_gfPow_inverse ha, refMul_one_left]
  · rw [← refMul_assoc, refMul_comm a, refMul_gfPow_inverse ha, refMul_one_left]

/-- There are no zero divisors: in a non-zero row only 0x00 gives 0x00. -/
theorem eq_zero_or_eq_zero_of_refMul_eq_zero {a b : Byte} (h : refMul a b = 0#8) : a = 0#8 ∨ b = 0#8 := by
  by_cases ha : a = 0#8
  · exact .inl ha
  · exact .inr ((bijective_refMul ha).injective (h.trans (refMul_zero_right a).symm))

end Sys2Proof.Machine

namespace Sys2Proof.Proofs

open Sys2Proof.Machine Sys2Proof.Safety Polynomial

/-- Settles O24: the steps of the sequential form make the parallel transfer. -/
theorem sequentialAndParallelIterationAgree : Obligations.SequentialAndParallelIterationAgree := iterStep_eq_parallel

/-- Settles O27: the iterations carry the nets; the nets are the shifts of `b`, the iterates of XTIME on `a`, and the
products with the bits of `b` consumed so far. -/
theorem iterationInvariants : Obligations.IterationInvariants := by
  intro a b w i hi
  obtain ⟨hacc, hmcand, hmplier, -⟩ := iterations_initWork_holdsNets a b w i
  rw [hacc, hmcand, hmplier, mcandNet_eq_iterate_xtime]
  exact ⟨mplierNet_eq b i, rfl, iterate_xtime_eq_refMul a i, accNet_eq_refMul_low_bits a b hi,
    iterations_initWork_iter_toNat a b w hi⟩

/-- Settles O28: row 8 of the nets; all bits of `b` are shifted out, eight XTIMEs are the product with
`XTIME^8(1) = 0x1B`, and the last OVF is that of stage 7. -/
theorem unusedValuesAtTheEnd : Obligations.UnusedValuesAtTheEnd := by
  intro a b s hs
  obtain ⟨-, hmcand, hmplier, -⟩ := iterations_initWork_holdsNets (trunc8 a) (trunc8 b) s.work 8
  have hovf := iterations_succ_initWork_ovf (trunc8 a) (trunc8 b) s.work 7
  refine ⟨_, exec_comb hs a b, hmplier.trans ?_, hmcand.trans ?_, hovf.trans ?_⟩
  · rw [mplierNet_eq]
    exact BitVec.ushiftRight_eq_zero (Nat.le_refl 8)
  · have hconst : xtime^[8] 1#8 = 0x1B#8 := by decide
    rw [mcandNet_eq_iterate_xtime, iterate_xtime_eq_refMul, hconst]
    rfl
  · rw [ovfNet, mcandNet_eq_iterate_xtime]

/-- Settles O30: `m(x)` is `x^8` and the polynomial of 0x1B, whose sum is their difference in characteristic 2. -/
theorem reductionConstantFollowsFromPolynomial : Obligations.ReductionConstantFollowsFromPolynomial := by
  refine ⟨(poly_eq_modByMonic_of_dvd ?_).symm, poly_xtime_eq_modByMonic⟩
  rw [CharTwo.sub_eq_add, add_comm, ← mPoly_eq]

/-- Settles O31: XTIME is the product with 0x02, and the product commutes. -/
theorem xtimeIsDoubling : Obligations.XtimeIsDoubling := by
  intro v s hs
  refine ⟨delivers_of_refMul_eq hs ?_, delivers_of_refMul_eq hs ?_⟩
  · rw [trunc8_toNat]
    exact refMul_two_right v
  · rw [trunc8_toNat, refMul_comm]
    exact refMul_two_right v

/-- Settles O32: bit 0 is the bit that left the byte, which is also added where 0x1B has a 1, at bits 1, 3 and 4. -/
theorem xtimeBitEquations : Obligations.XtimeBitEquations := by
  intro v
  refine ⟨getLsbD_xtime_zero v, ?_, ?_, ?_, ?_, ?_, ?_, ?_⟩ <;> rw [getLsbD_xtime_succ v (by decide)] <;> simp

/-- Settles O33: the inverse is checked bit by bit, linearity is that of the product with `x`, an injection sends one
byte to 0x00, and `0x02^51 = 0x01`. -/
theorem xtimeIsLinearBijection : Obligations.XtimeIsLinearBijection :=
  ⟨xtimeInverse_xtime, xtime_xor, fun _ => xtime_injective.eq_iff' rfl, iterate_xtime_fiftyOne⟩

/-- Settles O37: REF distributes over XOR in both operands. -/
theorem distributivityLaw : Obligations.DistributivityLaw := by
  intro a b c s hs
  refine ⟨_, _, _, delivers_gfmul hs _ _, delivers_gfmul hs _ _, delivers_of_refMul_eq hs ?_, delivers_gfmul hs _ _,
    delivers_of_refMul_eq hs ?_⟩
  · simpa only [trunc8_toNat] using refMul_xor_right a b c
  · simpa only [trunc8_toNat] using refMul_xor_left a b c

/-- Settles O38: the eight stages of the output wire, written out. -/
theorem closedFormOfProduct : Obligations.ClosedFormOfProduct := by
  intro a b s hs
  refine delivers_of_refMul_eq hs ?_
  rw [trunc8_toNat, trunc8_toNat, ← combOutput_eq_refMul]
  exact combOutput_eq_xor_bits a b

/-- Settles O39: associativity is that of the ring; the inverse `a^254` makes a non-zero row a permutation, which then
takes 0x00 and 0x01 once each. -/
theorem productIsAssociativeWithUniqueInverses : Obligations.ProductIsAssociativeWithUniqueInverses := by
  have hmul : combOutput = refMul := funext₂ combOutput_eq_refMul
  unfold Obligations.ProductIsAssociativeWithUniqueInverses
  rw [hmul]
  exact ⟨refMul_assoc, fun a b => eq_zero_or_eq_zero_of_refMul_eq_zero,
    fun a ha => (bijective_refMul ha).existsUnique 1#8, fun a ha => bijective_refMul ha⟩

/-- Settles O40: the orders of 0x02 and 0x03 are checked at their prime divisors, and every non-zero byte is a power of
0x03. -/
theorem multiplicativeOrders : Obligations.MultiplicativeOrders :=
  ⟨fun _ ha => gfPow_twoFiftyFive ha, fun _ hpos hlt => gfPow_ne_one_of_lt_orderOf orderOf_residue_three hpos hlt,
    gfPow_two_fiftyOne, fun _ hpos hlt => gfPow_ne_one_of_lt_orderOf orderOf_residue_two hpos hlt⟩

end Sys2Proof.Proofs
end

section
/-! SUPPORT. A system of blocks (R158): an activity of one block reads and writes its own place only, so activities of
two blocks commute. -/

namespace Sys2Proof.Machine

/-- An activity `f` of block `k`: an operation or a step, written to its own place. -/
def actAt {n : Nat} (f : State → Host.Outcome State Fault Refusal) (k : Fin n) (v : Blocks n) :
    Host.Outcome (Blocks n) Fault Refusal := putBack v k (f v[k])

theorem execAt_eq_actAt {n : Nat} (k : Fin n) (i : Instr) : execAt k i = actAt (exec i) k := rfl

theorem stepAt_eq_actAt {n : Nat} (k : Fin n) : stepAt k = actAt (n := n) step k := rfl

variable {n : Nat} {v : Blocks n} {j k : Fin n} {f g : State → Host.Outcome State Fault Refusal} {t u : State}

theorem actAt_next (h : f v[k] = .next t) : actAt f k v = .next (v.set k t) := by
  rw [actAt, h, putBack]

/-- Two activities of different blocks, one after the other, each on the state its own block had at the start. -/
theorem andThen_actAt (hjk : j ≠ k) (hf : f v[j] = .next t) (hg : g v[k] = .next u) :
    andThen (actAt f j v) (actAt g k) = .next ((v.set j t).set k u) := by
  have hplace : (v.set j t)[k] = v[k] := Vector.getElem_set_ne _ _ (Fin.val_ne_of_ne hjk)
  rw [actAt_next hf, andThen_next]
  exact actAt_next (by rw [hplace, hg])

/-- The other order ends in the same system. -/
theorem andThen_actAt_comm (hjk : j ≠ k) (hf : f v[j] = .next t) (hg : g v[k] = .next u) :
    andThen (actAt g k v) (actAt f j) = .next ((v.set j t).set k u) := by
  rw [andThen_actAt hjk.symm hg hf, Vector.set_comm _ _ (Fin.val_ne_of_ne hjk)]

theorem set_set_getElem_left (hjk : j ≠ k) : ((v.set j t).set k u)[j] = t := by
  simp [Fin.val_ne_of_ne hjk.symm]

theorem set_set_getElem_right : ((v.set j t).set k u)[k] = u := by
  simp

theorem set_set_getElem_other {l : Fin n} (hj : l ≠ j) (hk : l ≠ k) : ((v.set j t).set k u)[l] = v[l] := by
  simp [Fin.val_ne_of_ne hj.symm, Fin.val_ne_of_ne hk.symm]

/-- After an operation of profile COMB `p` shows its product. -/
theorem portP_combOperation_present {s : State} (hs : s.style = .comb) (a b : Nat) :
    portP (combOperation (present a b s)) = refMul (trunc8 a) (trunc8 b) := by
  rw [portP_comb (by simpa using hs), combOutput_eq_refMul]
  rfl

end Sys2Proof.Machine

namespace Sys2Proof.Proofs

open Sys2Proof.Machine

/-- Settles O41: both orders write the same two places with what each block makes of its own state. -/
theorem blocksDoNotInteract : Obligations.BlocksDoNotInteract := by
  simp only [Obligations.BlocksDoNotInteract, execAt_eq_actAt, stepAt_eq_actAt]
  constructor
  · intro n v j k a b c d hjk hj hk
    have hjexec := exec_comb hj a b
    have hkexec := exec_comb hk c d
    refine ⟨_, andThen_actAt hjk hjexec hkexec, andThen_actAt_comm hjk hjexec hkexec, ?_, ?_,
      fun l => set_set_getElem_other⟩
    · rw [set_set_getElem_left hjk, portP_combOperation_present hj]
    · rw [set_set_getElem_right, portP_combOperation_present hk]
  · intro n v j k t u hjk hj hk
    exact ⟨_, andThen_actAt hjk hj hk, andThen_actAt_comm hjk hj hk, set_set_getElem_left hjk, set_set_getElem_right⟩

end Sys2Proof.Proofs
end
